-- ==== Sys2Proof/Word.lean ====
section
/-! DEFINITION. The words of the PX4820 block model: bytes, registers of 32 bits, 64-bit fields of
command blocks, and the one shape in which every keyed collection of the state is held. -/
namespace Sys2Proof

/-- A byte of a block, a packet, a register buffer or a memory. -/
abbrev Byte := BitVec 8

/-- A register: R413 makes every register 32 bits wide. -/
abbrev W32 := BitVec 32

/-- A 64-bit field of a command block or a 64-bit counter. -/
abbrev W64 := BitVec 64

/-- A sequence of bytes, first byte at the lowest offset. -/
abbrev Bytes := List Byte

/-- A keyed collection as plain data: pairs with strictly rising keys (`Map.wf`), so that equal
collections are equal lists. Operations on it are in Machine/Maps.lean. -/
abbrev Map (α : Type) := List (Nat × α)

end Sys2Proof
end

