-- ==== Sys2Proof/Syntax.lean ====
section
/-! DEFINITION. The commands and events of the PX4820 (spec/opcode_table.json): one constructor per row,
in the table's order, with the operands the spec gives the row. A value that the outside world or chance
supplies (a command block read from host memory, a packet, a self-test's outcome, a sampled temperature)
is an operand: the row says that it happened, the operand says with what. -/
namespace Sys2Proof

/-- Where a command block came from, which decides its master and where its result goes (R276, R243, R150). -/
inductive Src where
  /-- A submission entry of queue pair `qp` of `port` (0 A, 1 B), owned by function `fn`, with its CID,
  RES_ADDR and RES_LEN (Table 12-2). -/
  | host (port fn qp cid resAddr resLen : Nat)
  /-- A CMD SEND on connection `conn` with its RET_RKEY and RET_OFF (R252). -/
  | pft (conn msg retRkey retOff : Nat)
  /-- A contribution that the MERGE in request entry `req` issues to its own node, at index `idx` (R150). -/
  | own (req idx : Nat)
  /-- The node's own Keeper (for example the RECLAIM of a role change, R358). -/
  | keeper
deriving DecidableEq, Repr

/-- One arriving frame that may carry a PFT packet: the port it arrived on, the bytes before the PFT header (the Ethernet, IPv6 and
UDP headers, R237 and R239), the 40 bytes of the PFT header (Table 10-3), and the payload. -/
structure Packet where
  port : Nat
  outer : Bytes
  hdr : Bytes
  payload : Bytes
deriving DecidableEq, Repr

/-- Whom an ICMPv6 message is for (of a Neighbor Solicitation, the address it asks for) and who sent it (R239). -/
structure Ends where
  dst : Bytes
  src : Bytes
deriving DecidableEq, Repr

/-- What is copied within a channel: the channel, or for REFRESH the block; and the units found uncorrectable meanwhile, each with the
codeword (R212, R222, R223). -/
structure Copying where
  place : Nat
  bad : List (Nat × Nat)
deriving DecidableEq, Repr

/-- Lanes and pods that failed the self-test at power-on (R338, R339). -/
structure SelfTest where
  lanes : List Nat
  pods : List Nat
deriving DecidableEq, Repr

/-- The NAND that the board carries: chip enables on each channel, and the copies of the parameter page that the first device answers
(R208). -/
structure Board where
  ces : Nat
  params : List Bytes
deriving DecidableEq, Repr

/-- What lies where HBM was scrubbed: the page whose words they are (0: none), the slot, and the space of its tags (R310, R333). -/
structure HbmUse where
  page : Nat
  slot : Nat
  space : Nat
deriving DecidableEq, Repr

/-- A word of SRAM: the kind of structure and its place in it (R336). -/
structure SramPlace where
  kind : Nat
  loc : Nat
deriving DecidableEq, Repr

/-- The commands and events of the part, one constructor per row of spec/opcode_table.json. -/
inductive Instr where
  -- attention, append and seal
  | query (src : Src) (blk : Bytes)
  | append (src : Src) (blk : Bytes)
  | appendMask (src : Src) (blk : Bytes)
  | appendComplete (req : Nat)
  | seal (src : Src) (blk : Bytes)
  | sealSequence (page : Nat) (tagOk : Bool)
  | tailRelease (page : Nat)
  | sketchLoad (region : Nat)
  | sketchScan (req : Nat)
  | pageDispatch (req item : Nat)
  | gatherRelease (region group : Nat)
  | residueMismatch (region pod lane : Nat)
  | laneSelfTestDone (region pod lane : Nat) (passed : Bool)
  | unitFault (region pod : Nat)
  | podFault (region pod : Nat)
  | podSelfTestDone (region pod : Nat) (passed : Bool)
  | regionPartial (req region : Nat)
  | deadlineExpiry (req : Nat)
  -- distributed queries
  | merge (src : Src) (blk : Bytes)
  | contributionIssue (req idx : Nat)
  | contributionResult (req idx : Nat)
  | abort (src : Src) (blk : Bytes)
  -- match engine
  | lookupDescriptors (src : Src) (blk : Bytes)
  | lookupSearch (src : Src) (blk : Bytes)
  | lookupAttach (src : Src) (blk : Bytes)
  | insertDirectoryEntry (src : Src) (blk : Bytes)
  | insertClass (src : Src) (blk : Bytes)
  | insertRule (src : Src) (blk : Bytes)
  | replaceRule (src : Src) (blk : Bytes)
  | ruleShiftDone
  | deleteConversation (src : Src) (blk : Bytes)
  | deleteMaskObject (src : Src) (blk : Bytes)
  | deleteDirectoryEntry (src : Src) (blk : Bytes)
  | deleteRule (src : Src) (blk : Bytes)
  | deleteProfile (src : Src) (blk : Bytes)
  -- profiles
  | profileLoad (src : Src) (img : Bytes) (readOk : Bool)
  | profileActivate
  | versionDrained (slot : Nat)
  -- lending
  | lendGrantRequest (src : Src) (blk : Bytes)
  | lendPlacement (src : Src) (blk : Bytes)
  | lendGrantReturn (src : Src) (blk : Bytes)
  | fetch (src : Src) (blk : Bytes)
  | reclaim (src : Src) (blk : Bytes)
  | reclaimNotice (lender grant graceMs : Nat)
  | reclaimGraceExpiry (req : Nat)
  -- mirroring, handover and roles
  | setPartner (src : Src) (blk : Bytes)
  | mirrorStatus (src : Src) (blk : Bytes)
  | promote (src : Src) (blk : Bytes)
  | mirrorRelease (src : Src) (blk : Bytes)
  | handoverFreeze (peer conv : Nat)
  | handoverAnswer (req : Nat)
  | handoverCommit (conv : Nat)
  | handoverTimeout (req conv : Nat)
  | mirrorBatchClose (conv layer : Nat)
  | mirrorResync (conv layer : Nat)
  | mirrorRetry (conv layer : Nat)
  | stubExpiry (conv : Nat)
  | role (src : Src) (blk : Bytes)
  | roleGraceExpiry
  | roleChangeFinish
  -- host interface
  | claim (src : Src) (blk : Bytes)
  | pftSend (src : Src) (sqe data : Bytes)
  | pftWrite (src : Src) (sqe data : Bytes)
  | reg (src : Src) (sqe : Bytes)
  | dereg (src : Src) (sqe : Bytes)
  | sqTailDoorbell (master slot off value : Nat)
  | sqFetch (port qp : Nat) (sqe data : Bytes) (readOk : Bool)
  | cqHeadDoorbell (master slot off value : Nat)
  | eqHeadDoorbell (master slot off value : Nat)
  | srqTailDoorbell (master slot off value : Nat) (ring : Bytes)
  | queueDisable (master page : Nat) (value : W32)
  | cqStall (port qp : Nat)
  | coalesceTimerExpiry (port qp : Nat)
  | heartbeat (master page : Nat) (value : W32)
  | primaryLossCheck
  | handover (master page : Nat) (value : W32)
  | functionLevelReset (port fn : Nat)
  | perstAssert (port : Nat)
  | perstDeassert (port : Nat)
  | hostLinkDown (port : Nat)
  | hostLinkUp (port speed width : Nat)
  | configurationRequest (port fn : Nat)
  -- registers
  | registerWrite (master addr : Nat) (value : W32) (be : Nat)
  | counterLoRead (master addr : Nat)
  | pgForce (master page : Nat) (value : W32)
  | pgLock (master page : Nat) (value : W32)
  | intArm (master : Nat) (value : W32)
  | intHoldoffExpiry
  | accRight (master : Nat) (value : W32)
  | accDigestReady
  | logMark (master : Nat) (value : W32)
  | logSel (master : Nat) (value : W32)
  | ckptWriteDone (ok : Bool)
  | clkLowReset (master : Nat) (value : W32)
  -- partitions and reservations
  | partCreate (master : Nat)
  | partResize (master : Nat)
  | partDelete (master : Nat)
  | partFreed (part : Nat)
  | partReserve (master : Nat)
  | partModeWrite (master : Nat) (value : W32)
  | rsvSet (master region : Nat)
  | rsvClear (master region : Nat)
  -- flash commands
  | format (master : Nat)
  | formatComplete (bad : List Nat)
  | flashOffline (master : Nat)
  -- connections opened and closed
  | pftOpenConnection (master : Nat)
  | pftCloseConnection (master : Nat)
  | keeperConnect (node : Nat)
  -- traffic control
  | gateCommit (master : Nat) (value : W32)
  | gateSwitch (port : Nat)
  | gateEntryAdvance (port : Nat)
  | egressSelect (port : Nat)
  -- the SPDM mailbox and responder
  | mbxClaim (master : Nat) (value : W32)
  | mbxRelease (master : Nat) (value : W32)
  | mbxGo (master : Nat) (value : W32)
  | mbxClaimTimeout
  | getVersion
  | getCapabilities
  | negotiateAlgorithms
  | getDigests
  | getCertificate
  | challenge
  | getMeasurements
  | keyExchange
  | finish
  | spdmHeartbeat
  | spdmHeartbeatTimeout (session : Nat)
  | keyUpdate
  | endSession
  | deliverKey
  | keyStatus
  -- sideband
  | smbusSelect (data : Bytes)
  | smbusRead
  | smbusWrite (data : Bytes)
  -- arriving packets and transport timers
  | pftSendPacket (p : Packet)
  | pftWritePacket (p : Packet)
  | pftAck (p : Packet)
  | ackDelayExpiry (conn : Nat)
  | retransmitTimeout (conn : Nat)
  | connect (p : Packet)
  | accept (p : Packet)
  | close (p : Packet)
  | event (p : Packet)
  | beacon (p : Packet)
  | beaconSend
  | peerSilent (node : Nat)
  | neighborSolicitation (port : Nat) (ends : Ends)
  | neighborAdvertisement (port : Nat) (target mac : Bytes)
  | echoRequest (port : Nat) (ends : Ends) (payload : Bytes)
  | frameDiscard (port : Nat) (oversize pauseOrPfc : Bool)
  | laneFailure (port lane : Nat)
  | linkDown (port : Nat)
  | linkUp (port : Nat)
  | ref156Lost
  | ref156Return
  -- tiers
  | ageEvent (page : Nat)
  | pressureEval
  | migrationComplete (page : Nat)
  | migrationFail (page : Nat)
  | sourceCopyRelease (page : Nat)
  | eviction (req : Nat)
  -- flash media
  | flashRead (unit cw first : Nat) (later : List Nat) (soft : Bool)
  | journalCommit
  | mapSegmentWriteback (seg : Nat)
  | garbageCollection (copying : Copying)
  | blockErase (block : Nat)
  | refresh (copying : Copying)
  | wearLevel (copying : Copying)
  | zqCalibration (target : Nat)
  | coldMountComplete (ok : Bool) (failed : List Nat)
  | warmMountComplete (ok : Bool)
  -- power and clocks
  | pwrFailNFall
  | flushComplete
  | powerOn (keepers : Nat) (hbms : List Nat) (failed : SelfTest) (board : Board)
  | sysRstNFall
  | railFault (rail : Nat)
  | ref100Lost
  | pllLockLost (pll : Nat)
  | powerDecision (deciwatts : Nat)
  | avsSettled
  | avsFail
  | temperatureSample (tj sensor : Nat) (hbms : List Nat)
  | pwrProfile (master : Nat) (value : W32)
  -- compositions
  | cmpEpoch (master : Nat) (value : W32)
  | cmpMctrl (master : Nat) (value : W32)
  | meteringSample
  -- reset domains and serial memory
  | quiesceWrite (master : Nat) (out : Bool) (value : W32)
  | domainDrained (domain : Nat)
  | rstPulse (master : Nat) (value : W32)
  | domainReady (domain : Nat)
  | smErase (master : Nat)
  | smProgram (master : Nat)
  | smRead (master : Nat)
  | smDone
  -- faults
  | patrolScrub (hbm : Bool) (loc bytes : Nat) (words : List (List (Nat × Nat))) (lies : HbmUse)
  | hbmEccError (stack channel row : Nat) (errs : List (Nat × Nat)) (page slot space : Nat)
  | tagFail (page unit space : Nat) (req : Nat) (sparePasses : Bool)
  | aesKnownAnswerTest (region : Nat) (passed : Bool) (bad : List Nat)
  | sramUncorr (place : SramPlace) (errs : List (Nat × Nat))
  | flitError (network loc : Nat) (words : List (List (Nat × Nat)))
  | d2dRepair (die module : Nat)
  | keeperFault (pair : Nat)
  | watchdog (block region : Nat)
  | margin (kind index value : Nat)
  | workUnitComplete (region pod req item : Nat)
  | pwrFailNRise (keepers : Nat) (hbms lanes pods : List Nat)
  | pllRelock (pll : Nat)
  | ethCtrlEnable (master port : Nat) (value : W32)
  | jtagInstruction (boundaryScan : Bool)
deriving DecidableEq, Repr

end Sys2Proof
end

