-- ==== Sys2Proof/Decode.lean ====
section
/-! DEFINITION. The command that a table word spells. spec/opcode_table.json gives no row any bits: a command
arrives as a command block, a submission entry, a register write, a packet or an event, whose bytes are the operands
of its constructor and are decoded in Machine/Operands.lean. -/
namespace Sys2Proof

/-- No row of the table has bits, so no word spells a command. -/
def decodeTableWord (_nbits _w : Nat) : Option Instr := none

end Sys2Proof
end

