-- ==== Sys2Proof/Machine/ByteOrder.lean ====
section
/-! DEFINITION. Byte order and bit fields. Registers, queue entries and command blocks are little-endian;
PFT, IPv6 and UDP headers are big-endian (R9). Bytes beyond the end of a block read as zero here: every
reader checks the block's length first. -/
namespace Sys2Proof

/-- The byte at offset `i`, as a number. -/
def byteAt (b : Bytes) (i : Nat) : Nat := (b.getD i 0).toNat

/-- The little-endian number in the `n` bytes from offset `i` (R9). -/
def leAt (b : Bytes) (i : Nat) : Nat → Nat
  | 0 => 0
  | n + 1 => byteAt b i + 256 * leAt b (i + 1) n

/-- The big-endian number in the `n` bytes from offset `i` (R9, wire fields). -/
def beAt (b : Bytes) (i : Nat) : Nat → Nat
  | 0 => 0
  | n + 1 => byteAt b i * 256 ^ n + beAt b (i + 1) n

/-- Bits `[lo + w - 1 : lo]` of a number. -/
def bitsOf (v lo w : Nat) : Nat := v / 2 ^ lo % 2 ^ w

/-- Bit `i` of a number. -/
def bitOf (v i : Nat) : Bool := v.testBit i

/-- The `n` little-endian bytes of a number (R9). -/
def toLE : Nat → Nat → Bytes
  | 0, _ => []
  | n + 1, v => BitVec.ofNat 8 v :: toLE n (v / 256)

/-- The `n` big-endian bytes of a number (R9, wire fields). -/
def toBE (n v : Nat) : Bytes := (toLE n v).reverse

/-- Whether the bytes from offset `i`, `n` of them, are all zero. -/
def zerosAt (b : Bytes) (i n : Nat) : Bool := ((b.drop i).take n).all (· == 0)

/-- `n` zero bytes. -/
def zeros (n : Nat) : Bytes := List.replicate n 0

/-- The bytes from offset `i`, `n` of them, zero beyond the end. -/
def slice (b : Bytes) (i n : Nat) : Bytes := (List.range n).map fun k => b.getD (i + k) 0

/-- A number rounded up to a multiple of `m`. -/
def roundUp (n m : Nat) : Nat := (n + m - 1) / m * m

/-- The quotient rounded up. -/
def ceilDiv (n m : Nat) : Nat := (n + m - 1) / m

/-- Replaces the bytes of `b` from offset `i` by `d`, the length unchanged. -/
def overwrite (b : Bytes) (i : Nat) (d : Bytes) : Bytes :=
  b.take i ++ (d.take (b.length - i)) ++ b.drop (i + d.length)

/-- a is newer than b among n-bit sequence numbers (R370). -/
def newer (n a b : Nat) : Bool :=
  let d := (a + 2 ^ n - b % 2 ^ n) % 2 ^ n
  decide (1 ≤ d ∧ d < 2 ^ (n - 1))

/-- a is older than b among n-bit sequence numbers (R370): two values half the range apart are each older. -/
def older (n a b : Nat) : Bool :=
  let d := (b + 2 ^ n - a % 2 ^ n) % 2 ^ n
  decide (1 ≤ d ∧ d ≤ 2 ^ (n - 1))

/-- A 32-bit error or event counter after `k` more events: it saturates (R369). -/
def sat32 (v k : Nat) : Nat := min (v + k) 0xFFFFFFFF

/-- A 64-bit usage counter after `k` more units: it saturates (R368). -/
def sat64 (v k : Nat) : Nat := min (v + k) 0xFFFFFFFFFFFFFFFF

end Sys2Proof
end

