-- ==== Sys2Proof/Machine/Aes.lean ====
section
/-! DEFINITION. AES-256 (FIPS 197), and over it XTS (IEEE 1619, R306) and CMAC (SP 800-38B, R308). The spec uses them by name: the
algorithms are those standards' (PRESUMED: taken from the named standards, log entry 8).

A block is its sixteen bytes in the standard's order, four to a column. -/
namespace Sys2Proof.Aes

/-- The substitution of each byte, thirty-two to a number, the lowest byte first. -/
def subTable : List Nat :=
  [0xc072a49cafa2d4adf04759fa7dc982ca76abd7fe2b670130c56f6bf27b777c63,
   0x75b227ebe28012079a059618c323c7041531d871f1e5a534ccf73f362693fdb7,
   0xcf584c4a39becb6a5bb1fc20ed00d153842fe329b3d63b52a05a6e1b1a2c8309,
   0xd2f3ff1021dab6bcf5389d928f40a351a89f3c507f02f94585334d43fbaaefd0,
   0xdb0b5ede14b8ee4688902a22dc4f816073195d643d7ea7c41744975fec130ccd,
   0x08ae7a65eaf4566ca94ed58d6d37c8e779e4959162acd3c25c2406490a3a32e0,
   0x9e1dc186b95735610ef6034866b53e708a8bbd4b1f74dde8c6b4a61c2e2578ba,
   0x16bb54b00f2d99416842e6bf0d89a18cdf2855cee9871e9b948ed9691198f8e1]

/-- The inverse substitution. -/
def backTable : List Nat :=
  [0xcbe9dec444438e3487ff2f9b8239e37cfbd7f3819ea340bf38a53630d56a0952,
   0x25d18b6d49a25b76b224d92866a12e084ec3fa420b954cee3d23c2a632947b54,
   0x849d8da75746155edab9edfd5048706c92b6655dcc5ca4d41698688664f6f872,
   0x6b8a130103bdafc1020f3fca8f1e2cd00645b3b80558e4f70ad3bc8c00abd890,
   0x6edf751ce837f9e28535ade72274ac9673e6b4f0cecff297eadc674f4111913a,
   0xf45acd78fec0db9a2079d2c64b3e56fc1bbe18aa0e62b76f89c5291d711af147,
   0xef9cc9939f7ae52d0d4ab519a97f51605fec8027591012b131c7078833a8dd1f,
   0x7d0c2155631469e126d677ba7e042b17619953833cbbebc8b0f52aae4d3be0a0]

/-- A byte through a table. -/
def through (t : List Nat) (x : Byte) : Byte := BitVec.ofNat 8 (t.getD (x.toNat / 32) 0 / 256 ^ (x.toNat % 32))

/-- A field element times x. -/
def doubled (a : Byte) : Byte := (a <<< 1) ^^^ (if a.msb then 0x1B else 0)

/-- The product of a field element and a small one: the sum of the doublings that the small one's four bits name. -/
def times (k : Nat) (a : Byte) : Byte :=
  let a2 := doubled a
  let a4 := doubled a2
  (((if bitOf k 0 then a else 0) ^^^ (if bitOf k 1 then a2 else 0)) ^^^ (if bitOf k 2 then a4 else 0))
    ^^^ (if bitOf k 3 then doubled a4 else 0)

/-- Every column mixed by the circulant matrix whose first row is `m`. -/
def mixed (m : List Nat) (b : Bytes) : Bytes :=
  (List.range 16).map fun i =>
    (List.range 4).foldl (fun y j => y ^^^ times (m.getD j 0) (b.getD (i / 4 * 4 + (i + j) % 4) 0)) 0

/-- Each byte of the result is the one `step` positions further for each place, around the block: 5 shifts the rows, 13 shifts them
back. -/
def strided (step : Nat) (b : Bytes) : Bytes := (List.range 16).map fun i => b.getD (step * i % 16) 0

/-- The exclusive or of two byte strings, as long as the first. -/
def plus (a b : Bytes) : Bytes := (List.range a.length).map fun i => a.getD i 0 ^^^ b.getD i 0

/-! ## Keys -/

/-- What the key schedule adds in before word `i`, from the word before it. -/
def turned (i : Nat) (w : Bytes) : Bytes :=
  if i % 8 = 0 then plus ((w.drop 1 ++ w.take 1).map (through subTable)) [BitVec.ofNat 8 (2 ^ (i / 8 - 1))]
  else if i % 8 = 4 then w.map (through subTable)
  else w

/-- The sixty words of the schedule, the last one first. -/
def schedule (key : Bytes) : List Bytes :=
  (List.range 52).foldl (fun ws i => plus (ws.getD 7 []) (turned (i + 8) (ws.getD 0 [])) :: ws)
    (((List.range 8).map fun k => slice key (4 * k) 4).reverse)

/-- The fifteen round keys, the last one first. -/
def roundKeys (key : Bytes) : List Bytes :=
  let ws := schedule key
  (List.range 15).map fun r => (List.range 4).flatMap fun k => ws.getD (4 * r + 3 - k) []

/-! ## One block -/

/-- A block enciphered under round keys, the first one first. -/
def encryptWith : List Bytes → Bytes → Bytes
  | k :: ks, b =>
    let middle := ks.dropLast.foldl (fun y k => plus (mixed [2, 3, 1, 1] (strided 5 (y.map (through subTable)))) k) (plus b k)
    plus (strided 5 (middle.map (through subTable))) (ks.getLast?.getD [])
  | [], b => b

/-- A block deciphered under round keys, the last one first. -/
def decryptWith : List Bytes → Bytes → Bytes
  | k :: ks, b =>
    let middle := ks.dropLast.foldl (fun y k => mixed [14, 11, 13, 9] (plus ((strided 13 y).map (through backTable)) k)) (plus b k)
    plus ((strided 13 middle).map (through backTable)) (ks.getLast?.getD [])
  | [], b => b

/-- AES-256 of a block. -/
def encrypt (key b : Bytes) : Bytes := encryptWith (roundKeys key).reverse b

/-! ## XTS (R306) -/

/-- Times x among the 128-bit polynomials, which XTS reads as little-endian numbers and CMAC as big-endian ones. -/
def nextMask (m : Nat) : Nat := (2 * m % 2 ^ 128) ^^^ (if 2 ^ 127 ≤ m then 0x87 else 0)

/-- The sixteen-byte blocks of a data unit under a mask that moves on, each through `f`. -/
def masked (f : Bytes → Bytes) : Nat → Nat → Bytes → Bytes
  | 0, _, _ => []
  | n + 1, m, b =>
    let t := toLE 16 m
    plus (f (plus (slice b 0 16) t)) t ++ masked f n (nextMask m) (b.drop 16)

/-- XTS over a data unit, each block through `f`: `keys` is the data key and the tweak key. Every data unit of Table 13-2 is whole
blocks. -/
def xts (f : Bytes → Bytes) (keys tweak data : Bytes) : Bytes :=
  masked f (data.length / 16) (leAt (encrypt (slice keys 32 32) tweak) 0 16) data

/-- XTS-AES-256 encryption of a data unit. -/
def xtsEncrypt (keys tweak plain : Bytes) : Bytes :=
  let ks := (roundKeys (slice keys 0 32)).reverse
  xts (encryptWith ks) keys tweak plain

/-- XTS-AES-256 decryption of a data unit. -/
def xtsDecrypt (keys tweak cipher : Bytes) : Bytes :=
  let ks := roundKeys (slice keys 0 32)
  xts (decryptWith ks) keys tweak cipher

/-! ## CMAC (R308) -/

/-- The chain over whole blocks. -/
def chained (f : Bytes → Bytes) : Nat → Bytes → Bytes → Bytes
  | 0, y, _ => y
  | n + 1, y, b => chained f n (f (plus y (slice b 0 16))) (b.drop 16)

/-- AES-256-CMAC of a message: its last block, padded where it is short, is masked by one of two subkeys. -/
def cmac (key msg : Bytes) : Bytes :=
  let ks := (roundKeys key).reverse
  let f := encryptWith ks
  let k1 := nextMask (beAt (f (zeros 16)) 0 16)
  let n := (msg.length - 1) / 16
  let last := msg.drop (16 * n)
  let y := chained f n (zeros 16) msg
  f (plus y (if last.length = 16 then plus last (toBE 16 k1) else plus (slice (last ++ [0x80]) 0 16) (toBE 16 (nextMask k1))))

end Sys2Proof.Aes
end

