-- ==== Sys2Proof/Config.lean ====
section
/-! DEFINITION. What the spec leaves open: free values and functions (opaque constants with NO body a proof
could see) and constants of one part. Each is named in the assumption log (notes/assumptions). -/
namespace Sys2Proof.Config

/-- The value the exponent unit computes for e^x, x ≤ 0 (R70 bounds its error, it does not fix it). -/
opaque expUnit : W32 → W32

/-- The natural logarithm of a positive FP32 number in units of 2^-149 (R145 bounds its error, it does not fix it). -/
opaque lnUnit : W32 → Int

/-- a × tanh(s / a) of the SOFTCAP stage (R107 bounds its error, it does not fix it). -/
opaque softcapUnit : (a s : W32) → W32

/-- The norm of a reconstructed key (KEYNORM, R107): the rule defines it and fixes neither its rounding nor its order. -/
opaque normUnit : List W32 → W32

/-- The order in which `n` FP32 terms enter one accumulator (R68 fixes the rounding, not the order). -/
opaque sumOrder : Nat → List Nat

/-- A fresh 16-bit draw of a pod's stochastic-rounding generator (R128, R129). -/
opaque random16 : Nat → Nat

/-- A DEVICE key drawn by the security processor (R302). -/
opaque deviceKey : Nat → Bytes

/-- A fresh region check value (R253). -/
opaque rkeyCheck : Nat → Nat

/-- A connection's first PSN, chosen at random (Table 10-3). -/
opaque firstPsn : Nat → Nat

/-- The Lernak P-256 public key in the boot ROM (R376). -/
opaque lernakKey : Bytes

/-- An ECDSA P-256 signature by the device key over a digest, with its nonce drawn fresh (R312). -/
opaque ecdsaSign : (digest : Bytes) → (fresh : Nat) → Bytes

/-- The responder's ephemeral ECDHE public key (R312). -/
opaque ecdhePublic : Nat → Bytes

/-- The session secrets of an SPDM session from the exchange data and the transcript (R312, DSP0274). -/
opaque spdmKeys : (exchange transcript : Bytes) → (fresh : Nat) → Bytes

/-- The verify data of a FINISH exchange (HMAC under a finished key, DSP0274). -/
opaque spdmVerifyData : (keys transcript : Bytes) → Bytes

/-- AES-256-GCM opening of a secured message (DSP0277): none where it fails authentication. -/
opaque aeadOpen : (keys : Bytes) → (seqNo : Nat) → (msg : Bytes) → Option Bytes

/-- AES-256-GCM sealing of a secured message (DSP0277). -/
opaque aeadSeal : (keys : Bytes) → (seqNo : Nat) → (msg : Bytes) → Bytes

/-- A responder nonce or other random SPDM field. -/
opaque nonce : Nat → Bytes

/-- The bytes of the certificate chain of slot 0 (R312: made at manufacture). -/
opaque certChain : Bytes

/-- The boot ROM version of measurement block 1 (R315: its value is not given). -/
opaque bootRomVersion : Bytes

/-- The eight bytes of measurement block 1's fuse state that hold the cooling rating, the stepping, the lifecycle state and the
debug-disable fuses (Table 13-5 names them and gives no places). -/
opaque fuseHead : (liquid stepA1 production debugOpen : Bool) → Bytes

/-- What a message of the SPDM responder holds where DSP0274 1.2 fixes it and the spec does not restate it. -/
opaque spdmBody : (request : Nat) → (msg : Bytes) → (fresh : Nat) → Bytes

/-- A rail's voltage in mV and current in 0.1 A as last measured (R442: measured, not computed). -/
opaque railReading : (rail time : Nat) → Nat × Nat

/-- The choice among owners of a failed lane's, path's or other unordered effect where the spec gives no order. -/
opaque freeChoice : Nat → Nat

/-- A stored slot's bytes before anything has been written to it (R132: no defined value). -/
opaque unwrittenSlot : (page slot : Nat) → Bytes

/-- The fused serial number of the part (R384: below 2^37). -/
opaque serial : Nat

/-- Whether the part is liquid-rated (R1). -/
opaque liquid : Bool

/-- Whether the part is of stepping A1 (R1). -/
opaque stepA1 : Bool

/-- The RKEY of the region in which a partner takes mirror traffic (R345 does not say how it is made known). -/
opaque mirrorRkey : (node : Nat) → Nat

/-- Ciphertext of a token's stored bytes as it is mirrored (R345 gives no layout); the model takes its length from R345. -/
opaque mirrorForm : (keys : Bytes) → (page slot : Nat) → (plain : Bytes) → Bytes

/-- The tags that go with a batch's ciphertext (R345 gives no layout). -/
opaque mirrorTags : (keys : Bytes) → (page pgen : Nat) → (cipher : Bytes) → Bytes

/-- What a partner reads from the bytes of mirror traffic for a slot of a page (no layout given): stored or tail bytes,
parameter area, or sketch by `what`. -/
opaque mirrorImage : (record : Bytes) → (what slot : Nat) → Bytes

/-- What a partner knows of a mirrored stream beyond its Buoy records (profile, class, retention, format: how they travel is not
stated). -/
opaque mirrorMeta : (conv layer what : Nat) → Nat

/-- The opcode of a command block that came in a CMD SEND (R252 gives the block no opcode field). -/
opaque sendOpcode : Bytes → Nat

/-- The bytes of a Keeper's notice on a conversation (R365 gives them no layout): 0 freeze, 1 answer, 2 commit. -/
opaque noticeBytes : (what conv : Nat) → Bytes

/-- The CODE of the record that a corrupt directory entry raises (R172 names its severity and gives no code). -/
opaque corruptCode : Nat

/-- Severity and code of the record that RESERVE_LOW raises (R227 says that an event is raised and names neither). -/
opaque reserveLow : Nat × Nat

/-- How DETAIL0 of LANE_FAULT packs the pod's page number and the lane (R338 names both and gives no places). -/
opaque laneDetail : (page lane : Nat) → Nat

/-- How many 4 KiB blocks beyond the first one remapped HBM row takes of the spare-capacity reserve (R335 does not give the row's size). -/
opaque rowMore : Nat

/-- 4 KiB blocks of the spare-capacity reserve that one remapped HBM row takes: at least one, and no more than the reserve's 131,072 (R335). -/
def rowBlocks : Nat := 1 + rowMore % 131072

/-- The five bytes behind the eleven characters of a part number in measurement block 6 (Table 13-5 gives 16 bytes and no padding). -/
opaque partPadding : Bytes

/-- Whether a pluggable module stands in a port's cage at a time (R262 names the bit; the board decides it). -/
opaque modulePresent : (port time : Nat) → Bool

/-- The serial-memory clock in MHz after discovery (R373: up to 200 MHz, as the device allows). -/
opaque smemMhz : Nat

/-- How far a rule shift has come at a time, in positions (R184 shows it; a search delays it, R181). -/
opaque shiftStep : (time : Nat) → Nat

/-- Progress in percent of a profile load (Table 4-11 gives the field and no rate). -/
opaque loadPercent : (time : Nat) → Nat

/-- The epoch that a Beacon carries where several compositions are in force (R354 speaks of one). -/
opaque beaconEpoch : List Nat → Nat

/-- Credits of a virtual channel of a die-to-die link beyond the first (R21 gives each its own and no number). -/
opaque vcCredits : (vc : Nat) → Nat

/-- The metadata block of a partition that holds a page list (0), a conversation's entry (1), a lend record (2) or a mask object's write
count (3); R310 puts them into 4 KiB blocks and gives no places. -/
opaque metaBlock : (part kind key : Nat) → Nat

/-- Accesses beyond the first that one slot of a length in ns serves (R19 and Table 18-8 give no number). -/
opaque slotAccesses : (ns : Nat) → Nat

end Sys2Proof.Config
end

