-- ==== Sys2Proof/Machine/Float.lean ====
section
/-! DEFINITION. Exact binary fractions, rounding, and the 4820's FP32 arithmetic (R67, R68, R97). A finite
value is an integer times a power of two; every operation is exact and then rounded once. -/
namespace Sys2Proof

/-- The exact value `m * 2 ^ e`. -/
structure Dy where
  m : Int
  e : Int
deriving DecidableEq, Repr

/-- Directions of rounding of a magnitude: to nearest even, up (away from zero) and down (toward zero). -/
inductive Rnd where
  | nearest | up | down
deriving DecidableEq, Repr

namespace Dy

def zero : Dy := ⟨0, 0⟩
def ofNat (n : Nat) : Dy := ⟨n, 0⟩
def pow2 (k : Int) : Dy := ⟨1, k⟩

/-- The integer mantissa of `a` at exponent `e ≤ a.e`. -/
def at_ (a : Dy) (e : Int) : Int := a.m * 2 ^ (a.e - e).toNat

def neg (a : Dy) : Dy := ⟨-a.m, a.e⟩
def abs (a : Dy) : Dy := ⟨a.m.natAbs, a.e⟩
def mul (a b : Dy) : Dy := ⟨a.m * b.m, a.e + b.e⟩
def add (a b : Dy) : Dy := let e := min a.e b.e; ⟨a.at_ e + b.at_ e, e⟩
def sub (a b : Dy) : Dy := a.add b.neg
def lt (a b : Dy) : Bool := let e := min a.e b.e; decide (a.at_ e < b.at_ e)
def le (a b : Dy) : Bool := let e := min a.e b.e; decide (a.at_ e ≤ b.at_ e)
def max (a b : Dy) : Dy := if a.lt b then b else a
def min (a b : Dy) : Dy := if b.lt a then b else a
def isZero (a : Dy) : Bool := a.m == 0

/-- ⌊log2 |a|⌋ of a non-zero value. -/
def log2 (a : Dy) : Int := (Nat.log2 a.m.natAbs : Int) + a.e

/-- The same value times two to the `k`. -/
def scale (a : Dy) (k : Int) : Dy := ⟨a.m, a.e + k⟩

end Dy

/-- A magnitude divided by `2 ^ k` and rounded to an integer. -/
def roundShift (r : Rnd) (m k : Nat) : Nat :=
  let q := m / 2 ^ k
  let rem := m % 2 ^ k
  match r with
  | .down => q
  | .up => if rem = 0 then q else q + 1
  | .nearest =>
    let half := 2 ^ k / 2
    if rem < half ∨ k = 0 then q
    else if rem = half then (if q % 2 = 0 then q else q + 1)
    else q + 1

/-- A magnitude rounded to `p` significant bits on the grid of multiples of `2 ^ emin`. -/
def roundMag (r : Rnd) (p : Nat) (emin : Int) (m : Nat) (e : Int) : Dy :=
  if m = 0 then ⟨0, emin⟩
  else
    let len : Int := Nat.log2 m + 1
    let sh := max (len - p) (emin - e)
    if sh ≤ 0 then ⟨m, e⟩ else ⟨roundShift r m sh.toNat, e + sh⟩

/-- A value rounded to `p` bits and least exponent `emin`, its sign kept. -/
def roundDy (r : Rnd) (p : Nat) (emin : Int) (a : Dy) : Dy :=
  let v := roundMag r p emin a.m.natAbs a.e
  if a.m < 0 then v.neg else v

/-- The quotient a / b (b non-zero) to at least `p + 4` bits with a sticky last bit, so that rounding it
once more to `p` bits rounds the exact quotient. -/
def quotient (p : Nat) (a b : Dy) : Dy :=
  let n := a.m.natAbs
  let d := b.m.natAbs
  let k := p + 4 + Nat.log2 d
  let q := n * 2 ^ k / d
  let s := if n * 2 ^ k % d = 0 then 0 else 1
  let v : Dy := ⟨2 * q + s, a.e - b.e - k - 1⟩
  if (a.m < 0) = (b.m < 0) then v else v.neg

/-- A floating value of any format: NaN, an infinity, or a finite value with its sign (of zero too). -/
inductive Fl where
  | nan
  | inf (neg : Bool)
  | fin (neg : Bool) (v : Dy)
deriving DecidableEq, Repr

/-- A binary format: exponent bits, mantissa bits, bias. -/
structure FmtSpec where
  eb : Nat
  mb : Nat
  bias : Int
deriving DecidableEq, Repr

/-- The value of an element with finite encodings only (Table 4-1's formula). -/
def decodeFin (f : FmtSpec) (bits : Nat) : Bool × Dy :=
  let s := bitsOf bits (f.eb + f.mb) 1
  let e := bitsOf bits f.mb f.eb
  let m := bitsOf bits 0 f.mb
  let mag : Dy := if e = 0 then ⟨m, 1 - f.bias - f.mb⟩ else ⟨2 ^ f.mb + m, (e : Int) - f.bias - f.mb⟩
  (s == 1, if s = 1 then mag.neg else mag)

/-- The bits of a value that the format represents exactly. -/
def encodeFin (f : FmtSpec) (neg : Bool) (v : Dy) : Nat :=
  let n := v.m.natAbs
  let sgn := if neg then 2 ^ (f.eb + f.mb) else 0
  if n = 0 then sgn
  else
    let lg := v.log2
    if lg < 1 - f.bias then
      let sub := (v.abs.at_ (min v.e (1 - f.bias - f.mb))).toNat / 2 ^ ((1 - f.bias - f.mb) - min v.e (1 - f.bias - f.mb)).toNat
      sgn + sub
    else
      let l := Nat.log2 n
      let mant := if l ≤ f.mb then n * 2 ^ (f.mb - l) else n / 2 ^ (l - f.mb)
      sgn + (lg + f.bias).toNat * 2 ^ f.mb + (mant - 2 ^ f.mb)

def spec32 : FmtSpec := ⟨8, 23, 127⟩
def specBf16 : FmtSpec := ⟨8, 7, 127⟩
def spec16 : FmtSpec := ⟨5, 10, 15⟩

/-- The value of an IEEE 754 encoding (FP32, BF16, FP16). -/
def decodeIeee (f : FmtSpec) (bits : Nat) : Fl :=
  let e := bitsOf bits f.mb f.eb
  if e = 2 ^ f.eb - 1 then
    if bitsOf bits 0 f.mb = 0 then .inf (bitsOf bits (f.eb + f.mb) 1 == 1) else .nan
  else let d := decodeFin f bits; .fin d.1 d.2

/-- The encoding of a value rounded to nearest even, ±∞ on overflow, the canonical NaN of R97 for NaN. -/
def encodeIeee (f : FmtSpec) (x : Fl) : Nat :=
  let infBits := (2 ^ f.eb - 1) * 2 ^ f.mb
  let sgn (n : Bool) := if n then 2 ^ (f.eb + f.mb) else 0
  match x with
  | .nan => infBits + 2 ^ (f.mb - 1)
  | .inf n => sgn n + infBits
  | .fin n v =>
    let r := roundDy .nearest (f.mb + 1) (1 - f.bias - f.mb) v
    if r.isZero then sgn n
    else if (2 ^ f.eb - 1 : Int) - f.bias ≤ r.log2 then sgn n + infBits
    else encodeFin f n r

namespace Fl

/-- The value one. -/
def one : Fl := .fin false (.ofNat 1)

/-- The exact product of two values, as IEEE 754 has it for the special ones. -/
def mul (a b : Fl) : Fl :=
  match a, b with
  | .nan, _ | _, .nan => .nan
  | .inf m, .inf n => .inf (m != n)
  | .inf m, .fin n y => if y.isZero then .nan else .inf (m != n)
  | .fin m x, .inf n => if x.isZero then .nan else .inf (m != n)
  | .fin m x, .fin n y => .fin (m != n) (x.mul y)

/-- The exact sum of two values: a zero sum is negative only where both terms are. -/
def add (a b : Fl) : Fl :=
  match a, b with
  | .nan, _ | _, .nan => .nan
  | .inf m, .inf n => if m = n then .inf m else .nan
  | .inf m, _ => .inf m
  | _, .inf n => .inf n
  | .fin m x, .fin n y =>
    let v := x.add y
    .fin (if v.isZero then m && n else decide (v.m < 0)) v

/-- The value with its sign changed. -/
def neg : Fl → Fl
  | .nan => .nan
  | .inf n => .inf !n
  | .fin n v => .fin (!n) v.neg

end Fl

namespace F32

/-- The value of an FP32 operand as the arithmetic reads it: a subnormal reads as zero (R97). -/
def read (x : W32) : Fl :=
  match decodeIeee spec32 x.toNat with
  | .fin n v => if v.isZero ∨ v.log2 < -126 then .fin n .zero else .fin n v
  | y => y

/-- An FP32 result: rounded to nearest even, a subnormal flushed to zero of its sign (R68, R97). -/
def write (x : Fl) : W32 :=
  match x with
  | .fin n v =>
    let r := roundDy .nearest 24 (-149) v
    if r.isZero ∨ r.log2 < -126 then (if n then 0x80000000#32 else 0#32)
    else BitVec.ofNat 32 (encodeIeee spec32 (.fin n r))
  | y => BitVec.ofNat 32 (encodeIeee spec32 y)

def nan : W32 := 0x7FC00000#32
def negInf : W32 := 0xFF800000#32
def posInf : W32 := 0x7F800000#32
def one : W32 := 0x3F800000#32

def isNan (x : W32) : Bool := read x == .nan
def isInf (x : W32) : Bool := match read x with | .inf _ => true | _ => false
def isFinite (x : W32) : Bool := match read x with | .fin _ _ => true | _ => false

/-- The sign of an exact result that is zero: that of the operands where they agree, else plus. -/
def ofDy (v : Dy) (zeroNeg : Bool) : Fl := .fin (if v.isZero then zeroNeg else decide (v.m < 0)) v

/-- An FP32 sum with an exact term: rounded once (R12: every product is accumulated in FP32). -/
def addFl (a : W32) (x : Fl) : W32 := write ((read a).add x)

/-- An FP32 value times an exact one, rounded once. -/
def mulFl (a : W32) (x : Fl) : W32 := write ((read a).mul x)

def add (a b : W32) : W32 := addFl a (read b)

def neg (a : W32) : W32 := a ^^^ 0x80000000#32
def sub (a b : W32) : W32 := add a (neg b)

def mul (a b : W32) : W32 := mulFl a (read b)

def div (a b : W32) : W32 :=
  write <| match read a, read b with
    | .nan, _ | _, .nan => .nan
    | .inf _, .inf _ => .nan
    | .inf m, .fin n _ => .inf (m != n)
    | .fin m _, .inf n => .fin (m != n) .zero
    | .fin m x, .fin n y =>
      if y.isZero then (if x.isZero then .nan else .inf (m != n))
      else if x.isZero then .fin (m != n) .zero
      else ofDy (quotient 24 x y) (m != n)

/-- a < b of two values, false when either is NaN. -/
def ltFl (a b : Fl) : Bool :=
  match a, b with
  | .nan, _ | _, .nan => false
  | .inf m, .inf n => m && !n
  | .inf m, .fin _ _ => m
  | .fin _ _, .inf n => !n
  | .fin _ x, .fin _ y => x.lt y

/-- a < b as the FP32 arithmetic compares them, false when either is NaN. -/
def lt (a b : W32) : Bool := ltFl (read a) (read b)

/-- The value an FP32 field spells, subnormals as they are: what a check of an operand compares. -/
def value (x : W32) : Fl := decodeIeee spec32 x.toNat

/-- a < b of the values two FP32 fields spell. -/
def less (a b : W32) : Bool := ltFl (value a) (value b)

def max (a b : W32) : W32 := if isNan a ∨ isNan b then nan else if lt a b then b else a
def min (a b : W32) : W32 := if isNan a ∨ isNan b then nan else if lt b a then b else a

/-- The FP32 value of an exact number. -/
def ofExact (v : Dy) : W32 := write (ofDy v false)

/-- The order the lanes sum `n` terms in: the free order where it is a permutation, else their own. -/
def orderOf (n : Nat) : List Nat :=
  let o := Config.sumOrder n
  if o.length = n ∧ (List.range n).all (o.contains ·) then o else List.range n

/-- Exact terms summed in FP32, each addition rounded, in the free order of `orderOf` (R68, R97: the lanes multiply
exactly and accumulate in FP32). -/
def sumFl (xs : List Fl) : W32 := (orderOf xs.length).foldl (fun acc i => addFl acc (xs.getD i (.fin false .zero))) 0

/-- FP32 terms summed in FP32. -/
def sum (xs : List W32) : W32 := sumFl (xs.map read)

end F32

/-! ## Functions known to a stated error (R70, R107, R145)

Each is computed between two exact fractions far closer together than its error bound. The unit's own value is free
(Config) as long as it stays within the bound of both; where it does not, the nearest value stands for it. -/

/-- Two fractions with a positive real number between them. -/
structure Span where
  lo : Dy
  hi : Dy
deriving DecidableEq, Repr

/-- Fraction bits the spans are computed to. -/
def spanBits : Nat := 256

/-- e^−x for x in [0, 1/2] in units of 2^−256, by 24 terms of its series: `t` is x in those units. -/
def expSeries (t : Nat) : Nat :=
  (List.range 24).foldr (fun k s => 2 ^ spanBits - t * s / ((k + 1) * 2 ^ spanBits)) (2 ^ spanBits)

/-- A span of e^−x for x ≥ 0: the series at x / 256, widened by 2^−96 for its remainder, squared eight times. -/
def expSpan (x : Dy) : Span :=
  if (Dy.ofNat 128).le x then ⟨.zero, .pow2 (-128)⟩
  else
    let u : Nat := 2 ^ spanBits
    let s := expSeries (x.at_ (min x.e (8 - spanBits)) / 2 ^ (8 - spanBits - min x.e (8 - spanBits)).toNat).toNat
    let lo := (List.range 8).foldl (fun v _ => v * v / u) (s - 2 ^ (spanBits - 96))
    let hi := (List.range 8).foldl (fun v _ => v * v / u + 1) (s + 2 ^ (spanBits - 96))
    ⟨⟨lo, -spanBits⟩, ⟨min hi u, -spanBits⟩⟩

/-- The span of tanh y for y > 0: its argument itself where y is small, else (1 − u) / (1 + u) with u = e^−2y. -/
def tanhSpan (y : Dy) : Span :=
  let one := Dy.ofNat 1
  let less := one.sub (.pow2 (-60))
  if y.lt (.pow2 (-30)) then ⟨y.mul less, y⟩
  else
    let u := expSpan (y.scale 1)
    ⟨(quotient 200 (one.sub u.hi) (one.add u.hi)).mul less, (quotient 200 (one.sub u.lo) (one.add u.lo)).mul (one.add (.pow2 (-60)))⟩

/-- The natural logarithm of a positive value to within 2^−100, in units of 2^−256: twice the inverse hyperbolic tangent of
(m − 1) / (m + 1) for its mantissa m, and of 1/3 for each power of two. -/
def lnNear (v : Dy) : Int :=
  let u : Nat := 2 ^ spanBits
  let series (z : Nat) : Nat :=
    2 * z * (List.range 80).foldr (fun i s => u / (2 * i + 1) + z * z / u * s / u) 0 / u
  let n := v.m.natAbs
  let k := 2 ^ Nat.log2 n
  v.log2 * series (u / 3) + series ((n - k) * u / (n + k))

namespace F32

/-- The value a unit gives for a positive quantity known to `s`: the free `w` where its relative error is at most 2^−k, zero
where that error reaches below 2^−126, else the nearest FP32 value. -/
def withinRel (k : Nat) (s : Span) (w : W32) : W32 :=
  let least := s.hi.mul ⟨2 ^ k - 1, -k⟩
  let most := s.lo.mul ⟨2 ^ k + 1, -k⟩
  match read w with
  | .fin _ v =>
    if v.isZero then (if least.lt (.pow2 (-126)) then 0#32 else ofExact s.lo)
    else if least.le v && v.le most then w else ofExact s.lo
  | _ => ofExact s.lo

/-- e^x of the exponent unit for x ≤ 0 (R70): exactly 1 at 0, zero for −∞ and below 2^-126, NaN for NaN, and otherwise the
unit's own value within a relative 2^-22 of e^x. -/
def exp (x : W32) : W32 :=
  match read x with
  | .nan => nan
  | .inf _ => 0#32
  | .fin _ v => if 0 ≤ v.m then one else withinRel 22 (expSpan v.neg) (Config.expUnit x)

/-- a × tanh(s / a) of SOFTCAP, a positive and finite (R107): the stage's own value within a relative 2^-20, with the sign of
s; ±a for an infinite s. -/
def softcap (a s : W32) : W32 :=
  match read s, value a with
  | .nan, _ => nan
  | .inf n, y => write ((Fl.fin n (if n then (Dy.ofNat 1).neg else .ofNat 1)).mul y)
  | .fin n v, .fin _ w =>
    if v.isZero ∨ w.isZero then write (.fin n .zero)
    else
      let t := tanhSpan (quotient 200 v.abs w)
      let r := withinRel 20 ⟨t.lo.mul w, t.hi.mul w⟩ (Config.softcapUnit a s)
      if n then neg r else r
  | .fin n _, _ => write (.fin n .zero)

/-- ln x of the combiner for x > 0 (R145): its own value within an absolute 2^-20, in units of 2^-149 (every FP32 value is one);
NaN and the infinity as IEEE 754 has them. -/
def ln (x : W32) : Fl :=
  match read x with
  | .fin _ v =>
    let near := lnNear v
    let free := Config.lnUnit x * 2 ^ (spanBits - 149)
    let d := (free - near).natAbs
    let r : Dy := ⟨if d + 2 ^ (spanBits - 100) ≤ 2 ^ (spanBits - 20) then free else near, -spanBits⟩
    .fin (decide (r.m < 0)) r
  | y => y

/-- ⌊√n⌋, bit by bit from bit `k − 1`. -/
def isqrt (k n : Nat) : Nat :=
  (List.range k).foldr (fun i r => if (r + 2 ^ i) * (r + 2 ^ i) ≤ n then r + 2 ^ i else r) 0

/-- √v of a non-negative value, rounded to FP32. -/
def sqrt (v : Dy) : W32 :=
  let sh := (60 - (Nat.log2 v.m.natAbs : Int)).toNat + (if (v.e - (60 - (Nat.log2 v.m.natAbs : Int)).toNat) % 2 = 0 then 0 else 1)
  let n := v.m.natAbs * 2 ^ sh
  let r := isqrt (Nat.log2 n / 2 + 1) n
  ofExact ⟨2 * r + (if r * r = n then 0 else 1), (v.e - sh) / 2 - 1⟩

/-- ‖k‖ of a reconstructed key (R107): the root of the sum of its squares. The spec fixes neither the order nor the rounding of
the FP32 additions: the unit's own value is free within what `n` of them and the root may err; else the nearest value. -/
def norm (k : List W32) : W32 :=
  let q := k.foldl (fun a x => match read x with | .fin _ v => a.add (v.mul v) | _ => a) Dy.zero
  match read (Config.normUnit k) with
  | .fin false w =>
    let d := ((w.mul w).sub q).abs
    if !w.isZero && d.le (q.mul ⟨k.length + 2, -23⟩) then Config.normUnit k else sqrt q
  | _ => sqrt q

end F32
end Sys2Proof
end

