-- ==== Sys2Proof/Machine/Formats.lean ====
section
/-! DEFINITION. The sixteen number formats (R87 to R99), the quantiser (R89 to R98, R126 to R128) and the
sketch rounding (R137). A format is named by its 4-bit code and the variant bit EVAR (R91). -/
namespace Sys2Proof

/-- How one element of a format is laid out. -/
inductive Elem where
  | float (f : FmtSpec) (maxFinite : Dy)   -- sign, exponent, mantissa; no infinity is ever written
  | int (bits : Nat) (unit : Int) (maxMag : Nat)   -- two's complement times 2^unit, magnitudes to maxMag
deriving DecidableEq, Repr

def e4m3 : Elem := .float ⟨4, 3, 7⟩ ⟨448, 0⟩
def e5m2 : Elem := .float ⟨5, 2, 15⟩ ⟨57344, 0⟩
def e3m2 : Elem := .float ⟨3, 2, 3⟩ ⟨28, 0⟩
def e2m3 : Elem := .float ⟨2, 3, 1⟩ ⟨15, -1⟩
def e2m1 : Elem := .float ⟨2, 1, 1⟩ ⟨6, 0⟩

/-- The element layout of a storage format code and its variant (Table 4-1). -/
def elemOf (code evar : Nat) : Elem :=
  match code with
  | 0x3 => e4m3
  | 0x4 => e5m2
  | 0x5 => e3m2
  | 0x6 => e2m3
  | 0x7 => e2m1
  | 0x8 => .int 8 0 127
  | 0x9 => .int 4 0 7
  | 0xA => if evar = 0 then e4m3 else e5m2
  | 0xB => if evar = 0 then e3m2 else e2m3
  | 0xC => e2m1
  | 0xD => .int 8 (-6) 127
  | 0xE => e2m1
  | _ => .int 8 0 127

/-- Bits per stored element of a storage format (Table 4-1). -/
def elemBits (code : Nat) : Nat :=
  if code = 0x7 ∨ code = 0x9 ∨ code = 0xC ∨ code = 0xE then 4
  else if code = 0x5 ∨ code = 0x6 ∨ code = 0xB then 6
  else 8

/-- Bits per element of a query, tail or result format (Table 4-1, codes 0 to 2). -/
def dataBits (code : Nat) : Nat := if code = 0 then 32 else 16

/-- Element bytes of DFMT or QFMT. -/
def dataBytes (code : Nat) : Nat := dataBits code / 8

/-- The value of an element of FP32, BF16 or FP16. -/
def decodeData (code bits : Nat) : Fl :=
  decodeIeee (if code = 0 then spec32 else if code = 1 then specBf16 else spec16) bits

/-- The exact value of one stored element before its scales. -/
def Elem.decode (el : Elem) (bits : Nat) : Dy :=
  match el with
  | .float f _ => (decodeFin f bits).2
  | .int w u _ => ⟨if bitOf bits (w - 1) then (bits : Int) - 2 ^ w else bits, u⟩

/-- The largest finite magnitude of a format. -/
def Elem.maxFinite (el : Elem) : Dy :=
  match el with
  | .float _ m => m
  | .int _ u m => ⟨m, u⟩

/-- The significant bits and the least exponent of the format's grid. -/
def Elem.grid (el : Elem) : Nat × Int :=
  match el with
  | .float f _ => (f.mb + 1, 1 - f.bias - f.mb)
  | .int w u _ => (w + 64, u)

/-- A magnitude rounded to the format, then saturated to its largest finite value with its sign
(R89, R90). -/
def Elem.roundTo (el : Elem) (r : Rnd) (v : Dy) : Dy :=
  let g := el.grid
  let x := roundDy r g.1 g.2 v
  if el.maxFinite.lt x.abs then (if x.m < 0 then el.maxFinite.neg else el.maxFinite) else x

/-- The bits of a value the format represents. -/
def Elem.encode (el : Elem) (neg : Bool) (v : Dy) : Nat :=
  match el with
  | .float f _ => encodeFin f neg v
  | .int w u _ => let i := v.at_ u; (i % 2 ^ w).toNat

/-- Rounds a scaled element: to nearest even, or stochastically with draw `r` (R128): the next
magnitude is written when r < ⌊f × 2^16⌋. -/
def Elem.quantise (el : Elem) (sr : Option Nat) (neg : Bool) (y : Dy) : Nat :=
  let v := match sr with
    | none => el.roundTo .nearest y
    | some r =>
      let lo := roundDy .down el.grid.1 el.grid.2 y
      let hi := roundDy .up el.grid.1 el.grid.2 y
      if (lo.sub hi).isZero then el.roundTo .nearest y
      else
        let num := (y.abs.sub lo.abs).scale 16
        let den := hi.abs.sub lo.abs
        -- r < ⌊num / den⌋  ⟺  (r + 1) × den ≤ num
        let pick := if ((Dy.ofNat (r + 1)).mul den).le num then hi else lo
        el.roundTo .nearest pick
  el.encode neg v

/-- The least k ≥ −127 with amax / 2^k at most the largest finite value (Lernak rule, R89). -/
def lernakExp (el : Elem) (amax : Dy) : Int :=
  if amax.isZero then 0
  else
    let k0 := amax.log2 - el.maxFinite.log2
    let k := if amax.le (el.maxFinite.scale k0) then k0 else k0 + 1
    max k (-127)

/-- emax of the OCP rule (R90). -/
def ocpEmax (code evar : Nat) : Int :=
  match code with
  | 0xA => if evar = 0 then 8 else 15
  | 0xB => if evar = 0 then 4 else 2
  | 0xC => 2
  | _ => 0

/-- The block-scale exponent of codes 0x3 to 0xD. -/
def blockExp (code evar : Nat) (amax : Dy) : Int :=
  if amax.isZero then 0
  else if code ≤ 0x9 then lernakExp (elemOf code evar) amax
  else max (amax.log2 - ocpEmax code evar) (-127)

/-- The E8M0 byte of the scale 2^k (R88). -/
def e8m0 (k : Int) : Nat := (k + 127).toNat

/-- The value of an E8M0 byte; none is NaN (R88). -/
def e8m0Val (b : Nat) : Option Dy := if b = 0xFF then none else some (.pow2 ((b : Int) - 127))

/-- The value of a UE4M4 byte; none is NaN (R92). -/
def ue4m4Val (b : Nat) : Option Dy :=
  if b = 0xFF then none
  else if b = 0 then some .zero
  else some ⟨16 + (b % 16 : Nat), ((b / 16 : Nat) : Int) - 7 - 4⟩

/-- The PQ4 block scale byte: amax / (6 × p) rounded upward, saturated at 480, zero for amax zero (R92). -/
def ue4m4For (amax p : Dy) : Nat :=
  if amax.isZero then 0
  else
    let six := p.mul (.ofNat 6)
    match (List.range 254).find? fun c => amax.le (((ue4m4Val (c + 1)).getD .zero).mul six) with
    | some c => c + 1
    | none => 0xFE

/-- The exact value of an FP16 encoding; none for NaN or an infinity. -/
def f16Val (bits : Nat) : Option Dy :=
  match decodeIeee spec16 bits with
  | .fin _ v => some v
  | _ => none

/-- An FP16 encoding of a quotient a / b rounded in a direction, saturated at 65,504 (R93, R94). -/
def f16Quot (r : Rnd) (a b : Dy) : Nat :=
  if a.isZero then 0
  else
    let q := roundDy r 11 (-24) (quotient 11 a b)
    let q := if (Dy.ofNat 65504).lt q.abs then (if q.m < 0 then (Dy.ofNat 65504).neg else .ofNat 65504) else q
    encodeFin spec16 ((a.m < 0) != (b.m < 0)) q

/-- One FP32 appended element: its exact value, none where it is NaN or infinite (R96, R126 step 2). -/
def finiteOf (x : Fl) : Option (Bool × Dy) :=
  match x with
  | .fin n v => some (n, v)
  | _ => none

/-- The clamp of R105: ±CLIP when CLIP is non-zero. -/
def clipTo (clip : Dy) (x : Bool × Dy) : Bool × Dy :=
  if clip.isZero then x
  else if clip.lt x.2.abs then (x.1, if x.1 then clip.neg else clip) else x

/-- The largest magnitude of a block. -/
def amaxOf (xs : List Dy) : Dy := xs.foldl (fun a x => Dy.max a x.abs) .zero

/-- The value divided by its scales in FP32, rounded to nearest even (R126 step 5), beyond FP32 an infinity that saturates. The
quantiser is none of the units whose subnormals R97 flushes: the quotient keeps them, and a zero its sign. -/
def scaled (v : Bool × Dy) (scale : Dy) : Bool × Dy :=
  if v.2.isZero then v
  else
    let q := roundDy .nearest 24 (-149) (quotient 24 v.2 scale)
    (v.1, if 128 ≤ q.log2 then (if v.1 then (Dy.pow2 128).neg else Dy.pow2 128) else q)

/-- Elements with their draws, quantised under one scale. -/
def quantBlock (el : Elem) (scale : Dy) (xs : List (Bool × Dy)) (sr : Nat → Option Nat) : List Nat :=
  (List.range xs.length).map fun i =>
    let y := scaled (xs.getD i (false, .zero)) scale
    el.quantise (sr i) y.1 y.2

/-- A 32-channel block of one token under codes 0x3 to 0xD: its element codes and scale byte. A
non-finite element makes the whole block NaN: scale 0xFF (R96), elements zero (DESIGN CHOICE, log entry 154). -/
def quantBlockMx (code evar : Nat) (clip : Dy) (xs : List Fl) (sr : Nat → Option Nat) : List Nat × Nat :=
  match xs.mapM finiteOf with
  | none => (xs.map fun _ => 0, 0xFF)
  | some vs =>
    let vs := vs.map (clipTo clip)
    let k := blockExp code evar (amaxOf (vs.map (·.2)))
    (quantBlock (elemOf code evar) (.pow2 k) vs sr, e8m0 k)

/-- A PQ4 block of one token under group scale p (R92): a zero block scale stores zero elements, and so does a NaN one (DESIGN CHOICE, log
entry 154: R96 and R126 do not say what they are). -/
def quantBlockPq4 (clip p : Dy) (xs : List Fl) (sr : Nat → Option Nat) : List Nat × Nat :=
  match xs.mapM finiteOf with
  | none => (xs.map fun _ => 0, 0xFF)
  | some vs =>
    let vs := vs.map (clipTo clip)
    let b := ue4m4For (amaxOf (vs.map (·.2))) p
    let s := p.mul ((ue4m4Val b).getD .zero)
    if s.isZero then (vs.map fun v => e2m1.encode v.1 .zero, b)
    else (quantBlock e2m1 s vs sr, b)

/-- Element codes packed into bytes (R98). -/
def packElems (bits : Nat) (cs : List Nat) : Bytes :=
  let n := cs.length
  if bits = 8 then cs.map (BitVec.ofNat 8)
  else if bits = 16 then cs.flatMap (toLE 2)
  else if bits = 4 then
    (List.range ((n + 1) / 2)).map fun i => BitVec.ofNat 8 (cs.getD (2 * i) 0 % 16 + 16 * (cs.getD (2 * i + 1) 0 % 16))
  else
    (List.range ((n + 3) / 4)).flatMap fun i =>
      toLE 3 (cs.getD (4 * i) 0 % 64 + 64 * (cs.getD (4 * i + 1) 0 % 64) + 4096 * (cs.getD (4 * i + 2) 0 % 64)
        + 262144 * (cs.getD (4 * i + 3) 0 % 64))

/-- The code of element `i` of a packed row (R98). -/
def elemAt (bits : Nat) (row : Bytes) (i : Nat) : Nat :=
  if bits = 8 then byteAt row i
  else if bits = 16 then leAt row (2 * i) 2
  else if bits = 4 then bitsOf (byteAt row (i / 2)) (4 * (i % 2)) 4
  else bitsOf (leAt row (3 * (i / 4)) 3) (6 * (i % 4)) 6

/-- BF16 of a finite value on arrival under HOLD: beyond the largest finite value it is ±0x7F7F, and a
non-finite input is 0x7FC0 (R126). -/
def bf16Tail (x : Fl) : Nat :=
  match x with
  | .fin n v =>
    let b := encodeIeee specBf16 (.fin n v)
    if bitsOf b 0 15 = 0x7F80 then (if n then 0xFF7F else 0x7F7F) else b
  | _ => 0x7FC0

/-- E5M2 toward −∞ (`down`) or +∞ of an exact value, infinities beyond 57,344 (R137). -/
def sketchRound (up : Bool) (v : Dy) : Nat :=
  let away := if up then decide (0 < v.m) else decide (v.m < 0)
  let r := roundDy (if away then .up else .down) 3 (-16) v
  if (Dy.ofNat 57344).lt r.abs then
    (if away then (if up then 0x7C else 0xFC) else (if r.m < 0 then 0xFB else 0x7B))
  else encodeFin ⟨5, 2, 15⟩ (r.m < 0) r

/-- The value of a sketch bound byte. -/
def sketchVal (b : Nat) : Fl := decodeIeee ⟨5, 2, 15⟩ b

end Sys2Proof
end

