-- ==== Sys2Proof/Machine/Maps.lean ====
section
/-! DEFINITION. The named operations on keyed collections. Every map of the state is read and changed
through these alone, so that its keys stay strictly rising (Laws/Maps.lean). -/
namespace Sys2Proof.Map

/-- The value held under key `k`, if any. -/
def find? {α : Type} : Map α → Nat → Option α
  | [], _ => none
  | (j, v) :: m, k => if j = k then some v else find? m k

/-- The value held under `k`, or `d` where none is held. -/
def getD {α : Type} (m : Map α) (k : Nat) (d : α) : α := (find? m k).getD d

/-- Whether a value is held under `k`. -/
def has {α : Type} (m : Map α) (k : Nat) : Bool := (find? m k).isSome

/-- Puts `v` under `k`, in key order, replacing what was there. -/
def insert {α : Type} : Map α → Nat → α → Map α
  | [], k, v => [(k, v)]
  | (j, w) :: m, k, v =>
    if k < j then (k, v) :: (j, w) :: m
    else if k = j then (k, v) :: m
    else (j, w) :: insert m k v

/-- Removes what is held under `k`. -/
def erase {α : Type} : Map α → Nat → Map α
  | [], _ => []
  | (j, w) :: m, k => if j = k then erase m k else (j, w) :: erase m k

/-- Stores `v` under `k` in canonical form: a value equal to the default `d` removes the entry. -/
def put {α : Type} [DecidableEq α] (m : Map α) (k : Nat) (v d : α) : Map α :=
  if v = d then m.erase k else m.insert k v

/-- Changes the value under `k` where one is held. -/
def adjust {α : Type} (m : Map α) (k : Nat) (f : α → α) : Map α :=
  match m.find? k with
  | some v => m.insert k (f v)
  | none => m

/-- Changes every value, keys unchanged. -/
def mapVals {α β : Type} (m : Map α) (f : Nat → α → β) : Map β := m.map fun kv => (kv.1, f kv.1 kv.2)

/-- Keeps the entries that satisfy `p`. -/
def filterKV {α : Type} (m : Map α) (p : Nat → α → Bool) : Map α := m.filter fun kv => p kv.1 kv.2

/-- The keys, in rising order. -/
def keys {α : Type} (m : Map α) : List Nat := m.map (·.1)

/-- The values, in key order. -/
def vals {α : Type} (m : Map α) : List α := m.map (·.2)

/-- The number of entries that satisfy `p`. -/
def count {α : Type} (m : Map α) (p : α → Bool) : Nat := (m.filter fun kv => p kv.2).length

/-- Whether keys rise strictly above `lo`. -/
def above {α : Type} : Option Nat → Map α → Bool
  | _, [] => true
  | none, (k, _) :: m => above (some k) m
  | some j, (k, _) :: m => decide (j < k) && above (some k) m

/-- The canonical form: strictly rising keys. -/
def wf {α : Type} (m : Map α) : Bool := above none m

/-- The lowest number from `k` on, at most `fuel` tries, that is not a key. -/
def lowestFreeFrom {α : Type} (m : Map α) : Nat → Nat → Nat
  | 0, k => k
  | fuel + 1, k => if m.has k then lowestFreeFrom m fuel (k + 1) else k

/-- The lowest key not in use. -/
def lowestFree {α : Type} (m : Map α) (start : Nat := 0) : Nat := lowestFreeFrom m m.length start

end Sys2Proof.Map
end

