-- ==== Sys2Proof/Machine/State.lean ====
section
/-! DEFINITION. The state of one PX4820: every register, table, queue, page, connection, counter and pin the
spec gives the node, as plain data, with the queue of commands that are waiting. Keyed collections are `Map`s. -/
namespace Sys2Proof.Machine

/-- Why the block stops with a fault. No command of the table ends in one; see NOTES.md, Stops. -/
inductive Fault where
  /-- Raised by nothing: the spec gives every modelled command an effect in every state (safe). -/
  | none_
deriving DecidableEq, Repr

/-- Why the block refuses a command. -/
inductive Refusal where
  /-- A command whose meaning is not written yet; raised by a rejected arm of exec only (safe). -/
  | notModelled (mnemonic : String)
  /-- JTAG_INSTRUCTION: a debug instruction while DEBUG_OPEN is 1; R440 names no such instruction and no
  effect of one (safe: the model stops where a debug unit would act). -/
  | debugUnit
deriving DecidableEq, Repr

/-- Where the node stands between power-off and service (R372, R377, R429, R234, R428, R386, R438). -/
inductive Phase where
  | off          -- SYS_RST_N low or rails down
  | waitPwrFail  -- SYS_RST_N has risen with PWR_FAIL_N low (R429)
  | ready        -- boot step 10 passed
  | recovery     -- no image slot passed (R377)
  | flushing     -- power-fail flush running (R234)
  | flushed      -- flush ended, waiting for power-off
  | stopped      -- stopped as at power-off (R386, R428, R430, R343, R342)
  | tripped      -- THERM_TRIP_N driven low (R438)
deriving DecidableEq, Repr

/-- Fuses of the part (R1, R443, R376). -/
structure Fuses where
  serial : Nat
  liquid : Bool
  stepA1 : Bool
  production : Bool          -- the lifecycle state is production (R443)
  debugOpen : Bool
  opKey : Option Bytes
deriving DecidableEq, Repr

/-- Input and output pins and references (R386, R429, R431, R438; SMB_ALERT_N is a view of the PWR page). -/
structure Pins where
  sysRstN : Bool
  pwrFailN : Bool
  thermTripN : Bool
  ref100 : Bool
  ref156 : Bool
deriving DecidableEq, Repr

/-- What the block sends or writes outside itself. The list of them is the model's own record of the
outside observations (log entry 4). -/
inductive Output where
  | result (port addr : Nat) (data : Bytes)            -- a result block written to host memory
  | completion (port qp idx : Nat) (entry : Bytes)     -- a completion entry (Table 12-4)
  | msix (port fn vector : Nat)                        -- an MSI-X message
  | eventRecord (port fn idx : Nat) (record : Bytes)   -- a Foghorn record in an event ring
  | shadow (port fn tail : Nat)                        -- the EQ tail shadow (R294)
  | hostWrite (port addr : Nat) (data : Bytes)         -- bytes placed into host memory by PFT
  | packet (port : Nat) (outer hdr payload : Bytes)    -- a PFT packet sent, with the headers before it (R237, R239)
  | frame (port cls : Nat) (entity : Option Nat) (len : Nat)  -- a frame started on a port (R268)
  | neighbor (port : Nat) (advert : Bool) (target dst : Bytes)
  | echoReply (port : Nat) (src dst payload : Bytes)
  | config (port fn : Nat) (ids : Option (List Nat))   -- a configuration completion, with a retry status or the identity (R275, R277)
  | readData (master addr : Nat) (value : W32)         -- a register read's answer
  | smbus (data : Bytes)
  | boundaryScan
  | avs (mv : Nat)                                     -- an AVS set point sent to the regulator
  | moduleReset (domain : Nat)                         -- a domain was pulsed
deriving DecidableEq, Repr

/-- States of a partition index that is not FREE (Table 18-4). -/
inductive PartState where
  | active | deleting
deriving DecidableEq, Repr

/-- A conversation slot (R38, R39): its present generation, whether it is in use, whether it is retired. -/
structure ConvSlot where
  gen : Nat
  used : Bool
  retired : Bool
deriving DecidableEq, Repr

/-- A partition (R33, R35, Table 18-4; PART_MODE bits as fields). -/
structure Partition where
  state : PartState
  tenant : Nat
  flagged : Bool
  strict : Bool
  mirror : Nat
  km1 : Nat
  promote : Bool
  units : Nat
  rsv : Nat
  partner : Option Nat
  nextSerial : Nat
  serialsLow : Bool
  serialsOut : Bool
  slots : Map ConvSlot
  releases : List Nat      -- Buoy RELEASE CONVs kept for the partner (R351)
deriving DecidableEq, Repr

/-- States of a key slot (R302) beyond EMPTY, which is no entry. -/
structure KeySlot where
  delivered : Bool
  key : Bytes
deriving DecidableEq, Repr

/-- A conversation held on the node (R444): `primaryNode` is set on a mirror copy and names its primary. -/
structure Conv where
  part : Nat
  profile : Nat
  cls : Nat
  slot : Nat                 -- metering slot 0 to 16 (R367)
  primaryNode : Option Nat
  deleting : Bool
  freezer : Option Nat       -- the peer whose freeze notice holds new requests (R365)
  frozenAt : Nat             -- when the notice came
  answered : Bool            -- the notice has been answered
  held : List Nat            -- request entries held while frozen (R365)
deriving DecidableEq, Repr

/-- A layer stream (R42, R53, R121, R192, R345). -/
structure Stream where
  next : Nat
  retained : Bool
  mirror : Nat               -- 0 OFF, 1 ASYNC-K, 2 SYNC
  k : Nat
  fmt : Nat
  evar : Nat
  flag : Nat                 -- 0 HOT, 1 COLD, 2 LEND (R192)
  buoy : Nat
  batch : Nat
  appliedBatch : Nat         -- at a partner: the last BATCH applied (R345)
  mstate : Nat               -- 0 OFF, 1 RESYNCING, 2 RESYNCED (R344)
  batchFrom : Option Nat     -- first slot of the open mirror batch
  sent : Nat                 -- slot position a resync has been sent up to (R349)
  home : Option Nat          -- home region (R22)
  entries : Map Nat          -- page-list entry to page handle
deriving DecidableEq, Repr

/-- Page states (Table 2-5). -/
inductive PgState where
  | opened | sealed | migrating | lent | absent
deriving DecidableEq, Repr

/-- One stored token slot: element bytes and scale bytes (R130, R131). -/
structure Row where
  elems : Bytes
  scales : Bytes
deriving DecidableEq, Repr

/-- A page's place in NAND (R216): logical unit, offset in 16-byte steps, units spanned, channel. -/
structure Locator where
  unit : Nat
  off : Nat
  units : Nat
  channel : Nat
deriving DecidableEq, Repr

/-- An owner's lend record (R201). -/
structure LendRec where
  lender : Nat
  grant : Nat
  off : Nat
  pgen : Nat
deriving DecidableEq, Repr

/-- A page (Tables 2-3 and 2-5, R47, R48, R52, R130 to R138, R187 to R201). -/
structure Page where
  part : Nat
  conv : Nat
  layer : Nat
  entry : Nat
  state : PgState
  tier : Nat                 -- 0 HBM, 1 NAND, 2 neighbour, 3 none (Table 2-3)
  region : Nat
  lastRegion : Nat
  retained : Bool
  pgen : Nat
  shares : Nat
  slot : Nat                 -- metering slot
  profile : Nat
  version : Nat              -- version under which it was opened (R93, R111)
  fmt : Nat
  evar : Nat
  hold : Bool
  sr : Bool
  rows : Map Row             -- the stored form's written slots
  tail : Map Bytes           -- the BF16 tail's written slots
  params : Bytes             -- parameter area (R130)
  fill : Nat                 -- counted slots (R29)
  sealing : Bool             -- its seal sequence has been triggered (R135)
  refill : Bool              -- opened at an ABSENT entry, refill not complete (R52)
  sealTime : Nat
  age : Nat                  -- age bucket last evaluated (Table 7-7)
  sketch : Bytes
  sketchHeld : Bool
  blocks : Nat
  tailBlocks : Nat
  rsvBlocks : Nat
  heldHot : Bool
  shadow : Option Locator
  loc : Option Locator
  lend : Option LendRec
  dest : Nat                 -- destination tier while MIGRATING
  srcTier : Nat              -- source tier while MIGRATING, or of the copy awaiting release
  srcHeld : Bool             -- a source copy awaits release (R194)
  srcReaders : List Nat      -- requests that bound it in its source tier (R194)
  durable : Bool             -- the destination copy of its migration is durable (R194)
  promoTime : Nat            -- when it was last promoted to HBM (R206)
  holders : Nat              -- pods that hold it (R50)
  readers : List Nat         -- request entries that bound it and are in flight (R194, R196)
  mirrored : Bool            -- its seal is mirror-complete (R348)
  restoring : Bool           -- being restored from a shadow or the partner (R204, R336)
  lost : Bool                -- its partner could not give it back: it stays MIGRATING until one can (R49, R350)
  lostFrom : Nat             -- while its open image is restored: the first slot lost here (R336)
  target : Option Nat        -- the TIER target that its migration carries out (R189)
deriving DecidableEq, Repr

/-- A mask object (R74, R142): unlisted segments are zero. -/
structure MaskObj where
  part : Nat
  region : Nat
  len : Nat                  -- in 32-byte units
  segs : Map Bytes
  writes : Nat
  slot : Nat
  deleted : Bool             -- released, but a query in flight still reads it
deriving DecidableEq, Repr

/-- A partial entry (m, l, o) (R144); `nan` marks the NaN entry of R71. -/
structure Triple where
  m : W32
  l : W32
  o : List W32
  nan : Bool
deriving DecidableEq, Repr

/-- Where a dispatched page of a request stands. -/
inductive ItemState where
  | waiting | held | fetching | fetched | queued | done | omitted
deriving DecidableEq, Repr

/-- A pairing of a page, or a slice of it, with a unit set of a request (R64, R65). -/
structure Item where
  entry : Nat
  page : Nat
  region : Nat
  set : Nat
  slice : Nat
  state : ItemState
  pod : Nat
  fill : Nat                 -- an open page's fill as read at dispatch (R29)
  opened : Bool              -- bound as open at acceptance (R61)
  grouped : Bool
  units : Nat                -- work units queued for it at its pod
  heldAt : Nat               -- time at which it was held for gathering (R85)
  streamed : Bool            -- read without promotion (R197)
  fellBack : Bool            -- a promotion found no room (R197)
  handed : Bool              -- its set's region partial has been handed to the combiner (R66)
deriving DecidableEq, Repr

/-- A contribution of a MERGE (Table 6-2) and how far it has come. -/
structure Contribution where
  node : Nat
  isMerge : Bool
  off : Nat
  len : Nat
  state : Nat                -- 0 not issued, 1 outstanding, 2 merged, 3 ended
  link : Nat                 -- local request entry, or connection
  rkey : Nat                 -- receive region
  aborted : Bool
  got : Option Bytes         -- its result block, once wholly placed (R152)
deriving DecidableEq, Repr

/-- What an accepted request is. -/
inductive ReqKind where
  | query | append | seal | merge | mask | lookup | insert | delete | rule | lend | fetch | reclaim
  | mirror | promote | role | profile | forward | other
deriving DecidableEq, Repr

/-- A request entry (R162): what it bound, what it has computed, and its commit (R159). -/
structure Req where
  kind : ReqKind
  id : Nat
  src : Src
  master : Nat
  part : Option Nat
  slot : Nat
  entryUsed : Bool           -- takes one of the 16,384 entries
  deadline : Option Nat      -- absolute local time in ns
  status : Option Nat        -- set at the commit point
  blk : Bytes
  conv : Nat
  layer : Nat
  profile : Nat
  version : Nat
  items : List Item
  scanned : Bool             -- selection fixed (or none asked); for an APPEND: past check 10
  behind : List (Src × Nat × Bytes)   -- APPENDs and SEALs that wait behind this APPEND at check 10 (R123)
  bounds : Map W32           -- page-list entry to bound (R78)
  accs : Map (Map Triple)    -- region to the partials its anchors have handed over, by token × 128 + head (R66)
  seen : Map (List Nat)      -- page-list entry to its attended slots, as the mask segment was read for it (R75)
  combined : Map Triple
  arrived : List Nat         -- regions whose partial has been merged
  pagesOmitted : Nat
  aux0 : Nat
  aux1 : W32
  capped : Bool
  gathered : Bool
  firstSlot : Nat
  nextSlot : Nat
  sealCount : Nat
  created : Bool
  waits : List Nat           -- pages whose seal, or reads, it waits for
  contribs : List Contribution
  heads : Nat
  dv : Nat
  tokens : Nat               -- QTOK of the first result merged into a MERGE (R152)
  mergeRegion : Nat
  mergePods : List Nat
  lastNode : Nat
  flags : Nat
  pagesAttended : Nat
  res : Bytes                -- the result block, formed at the commit point
deriving DecidableEq, Repr

/-- A completion held while its CQ is full (R289), or ready to write. -/
structure Cqe where
  tag : Nat
  status : Nat
  trunc : Bool
  kind : Nat
  cid : Nat
  bytes : Nat
  aux : Nat
deriving DecidableEq, Repr

/-- The run-time side of a queue pair (R282, R288, R289); its configuration is in the HQ registers. -/
structure Queue where
  sqHead : Nat
  sqTail : Nat
  cqHead : Nat
  cqTail : Nat
  phase : Bool
  held : List Cqe
  heldSince : Nat
  stalled : Bool
  unsignalled : Nat
  firstUnsignalled : Nat
  disabling : Bool
  inflight : List Nat        -- CIDs accepted and not yet committed
deriving DecidableEq, Repr

/-- The run-time side of an event queue (R294). -/
structure EventQueue where
  head : Nat
  tail : Nat
  lost : Nat
deriving DecidableEq, Repr

/-- A posted receive buffer (R292). -/
structure Buffer where
  addr : Nat
  len : Nat
  tag : Nat
deriving DecidableEq, Repr

/-- A partition's shared receive queue (R292). -/
structure Srq where
  port : Nat
  fn : Nat
  head : Nat
  tail : Nat
  bufs : List Buffer
deriving DecidableEq, Repr

/-- A PCIe port (R277, R295 to R297, R392). -/
structure Port where
  linkUp : Bool
  speed : Nat
  width : Nat
  downSince : Nat
  perst : Bool               -- PERST asserted
  readyAt : Nat              -- local time from which configuration requests are completed normally
  lastHb : Nat
deriving DecidableEq, Repr

/-- A lane that is not as at manufacture (R338, R342). -/
structure Lane where
  st : Nat                   -- 0 active, 1 spare, 2 retired
  faultAt : Option Nat
  testing : Bool
  forced : Bool              -- its test follows an injected mismatch (R411)
deriving DecidableEq, Repr

/-- A profile-cache entry of a pod (R16, R116). -/
structure CacheEnt where
  id : Nat
  ver : Nat
deriving DecidableEq, Repr

/-- A unit set's state held in a pod (R63, R66, R446). -/
structure SetState where
  req : Nat
  set : Nat
  bytes : Nat
  expanded : Bool
  anchor : Bool
  acc : Map Triple           -- running partials by token × 128 + head (R63)
deriving DecidableEq, Repr

/-- A page, or a slice of one, that a pod has been given (R14, R15, R85): the members of one release, and how its units run. -/
structure Pass where
  page : Nat
  bytes : Nat                -- page-buffer space of its image
  members : List (Nat × Nat) -- (request, item) whose units have not completed
  units : Nat
  lanes : List Nat           -- lanes its units were issued to, in turn; none while it waits behind another page
  rerun : List (Nat × Option Nat) -- lane whose result is invalid (R13), and the lane that re-runs its unit (R338)
deriving DecidableEq, Repr

/-- A pod (R14 to R18, R116, R128, R338, R339, R446). -/
structure Pod where
  st : Nat                   -- 0 active, 1 spare, 2 retired
  stopped : Bool             -- stopped and self-testing
  lanes : Map Lane
  cache : List CacheEnt      -- most recently used first, at most four
  queued : Nat               -- work units queued
  sets : List SetState
  passes : List Pass         -- pages it has been given, in order: the first is on its lanes (R14)
  podFaultAt : Option Nat
  unitFaultAt : Option Nat
  forced : Bool              -- its test follows an injected disagreement (R411)
deriving DecidableEq, Repr

/-- A gathered group in a region (R85, R86): members in arrival order. -/
structure Group where
  id : Nat
  page : Nat
  tailForm : Bool
  profile : Nat
  version : Nat
  path : Nat
  part : Nat                 -- 256 for the SHARED partitions together
  since : Nat
  members : List (Nat × Nat)
deriving DecidableEq, Repr

/-- A STRICT partition's reservation in a region (R423). -/
structure Rsv where
  pods : Nat                 -- bit mask
  first : Nat
  count : Nat
  gather : Nat
deriving DecidableEq, Repr

/-- A region's arbiter (R19, R402): the frame in force, the slot it stands in and since when, the accesses waiting by the partition they
are made for (256: none), and the SHARED partition whose turn it is with the free slots left to it. -/
structure Arb where
  frame : Nat
  slotNs : Nat
  cur : Nat
  since : Nat
  waiting : Map Nat
  turn : Nat
  left : Nat
deriving DecidableEq, Repr

/-- A die-to-die link (R20, R21): words waiting by virtual channel, words sent whose credits have not come back, and the channel of
VC1 to VC3 whose turn it is with the words left to it. -/
structure Link where
  waiting : Map Nat
  flying : Map Nat
  turn : Nat
  left : Nat
deriving DecidableEq, Repr

/-- A region (R17 to R22, R84 to R86, R337, R343, R402). -/
structure Region where
  retired : Bool
  aesActive : Nat
  aesSpare : Bool
  groups : List Group
  rsv : Map Rsv
  lostBlocks : Nat           -- blocks left the pool with retired rows (R335)
  arb : Arb
deriving DecidableEq, Repr

/-- A profile version in a slot (R100, R112); `img` holds every byte of the image. -/
structure ProfSlot where
  id : Nat
  ver : Nat
  st : Nat                   -- 1 loading, 2 resident, 3 draining
  manifest : Bool
  mib : Nat
  wdig : Bytes
  pdig : Bytes
  qdig : Bytes
  img : Bytes
deriving DecidableEq, Repr

/-- The profile store and its run-time record (R100, R109, R114). -/
structure Profiles where
  slots : Map ProfSlot
  lastVer : Map Nat
  deleting : List Nat
  loading : Option (Nat × Nat)    -- request entry and slot of the load in progress
  manifests : List Bytes
  storeGib : Nat
deriving DecidableEq, Repr

/-- A directory entry (Table 7-1); `bad` marks a parity error (R172). -/
structure DirEnt where
  layer : Nat
  kind : Nat
  chash : Nat
  ptr : Nat
  part : Nat
  bad : Bool
deriving DecidableEq, Repr

/-- A key record (Table 7-2). -/
structure KeyRec where
  tenant : Nat
  kind : Nat
  profile : Nat
  layer : Nat
  ptr : Nat
  phash : Bytes
deriving DecidableEq, Repr

/-- A placement rule (R178): value, care mask, action. -/
structure Rule where
  value : Nat
  care : Nat
  action : Nat
deriving DecidableEq, Repr

/-- A rule change waiting or running (R181, R182): 0 insert, 1 replace, 2 delete. -/
structure RuleChange where
  op : Nat
  pos : Nat
  rule : Rule
  req : Nat
deriving DecidableEq, Repr

/-- The Match Engine (R166 to R184, R342). -/
structure Mex where
  dir : Map DirEnt
  keys : Map KeyRec
  rules : List Rule
  changes : List RuleChange       -- oldest first; the first one's shift runs
  shiftPos : Nat
  spared : Option Nat             -- bank group replaced by the spare
  retired : List Nat              -- bank groups retired with no spare left
  parity : Map (List Nat)         -- times of parity errors by bank group
deriving DecidableEq, Repr

/-- A grant this node has made to an owner (R200, R203). -/
structure GrantOut where
  owner : Nat
  mib : Nat
  rkey : Nat
  slot : Nat
  noPlace : Bool
deriving DecidableEq, Repr

/-- A grant this node holds from a lender (R201): used 4 KiB units by page. -/
structure GrantIn where
  lender : Nat
  grant : Nat
  mib : Nat
  rkey : Nat
  used : List (Nat × Nat × Nat)   -- offset, length, page
  reclaim : Bool
  till : Nat                      -- end of the reclaim's grace period
  began : Bool                    -- a page has lain in it
deriving DecidableEq, Repr

/-- A FETCH that is running (R202): the receive region its bytes come to, the page, and what it is for: 0 a streamed read
of item `item` of request `req`, 1 a promotion or another migration, 2 a restoration. -/
structure FetchRec where
  region : Nat
  page : Nat
  why : Nat
  req : Nat
  item : Nat
deriving DecidableEq, Repr

/-- The Tier Manager (R191, R199 to R207). -/
structure Tier where
  grantsOut : Map GrantOut
  grantsIn : List GrantIn
  fetches : List FetchRec
  suspended : Map Nat             -- partitions whose pressure demotion is suspended, and the bytes of the form refused (R191)
  relieving : List Nat            -- partitions that fell below LOW_PCT and have not reached HIGH_PCT (R191)
  asked : List (Nat × Nat × Nat)  -- grant requests sent: lender, connection, receive region
deriving DecidableEq, Repr

/-- A NAND block (R212, R213, R222 to R227). -/
structure Block where
  erases : Nat
  valid : Nat                     -- valid units
  written : Nat                   -- write order, for the oldest-written tie
  reads : Nat
  next : Nat                      -- pages programmed since its last erase
  free : Bool
  openB : Bool
  bad : Bool
  refresh : Bool                  -- queued for refresh
  retire : Bool                   -- to be retired once its valid units are copied out
  erasing : Bool                  -- old block whose units are no longer mapped
  isMap : Bool                    -- holds map segments (R217)
  readers : List (Nat × Nat)      -- query items that resolved a unit to it before it was moved (R225)
  movers : List Nat               -- pages whose promotion did
deriving DecidableEq, Repr

/-- A map entry (R217): physical unit and live pages occupying it; `block` is the block of the unit. -/
structure MapEnt where
  pun : Nat
  occ : Nat
  block : Nat
deriving DecidableEq, Repr

/-- Journal record kinds (Table 9-3). -/
inductive JKind where
  | map | release | seg | erase | retire | ckpt | closed
deriving DecidableEq, Repr

/-- A journal record (R220): its contents in the order of Table 9-3, and its sequence number. A MAP record's third word says which copy
of a page it serves, 0 for a copy of a unit. -/
structure JRec where
  kind : JKind
  a : Nat
  b : Nat
  c : Nat
  seq : Nat
deriving DecidableEq, Repr

/-- The metadata of a programmed unit (R210): its logical unit index, or its segment's, its write sequence number, and its kind. -/
structure UnitMeta where
  unit : Nat
  seq : Nat
  isMap : Bool
deriving DecidableEq, Repr

/-- A block that is being relocated, its copies programmed and its map entries not yet changed (R223): unit and PUN of each copy. -/
structure Move where
  block : Nat
  copied : List (Nat × Nat)
deriving DecidableEq, Repr

/-- The flash media controller and the medium (R208 to R235). What the medium keeps across power-off is
`formatted`, `worn`, `blocks`, `units`, `reserveUsed`, `closed`, `opPct`, the durable journal and the segments' places. -/
structure Flash where
  st : Nat                        -- 0 OFFLINE, 1 ONLINE, 2 WORN
  formatted : Bool
  mounting : Bool
  formatting : Bool
  worn : Bool                     -- state recorded at the last flush
  closed : Bool                   -- the journal ends in a CLOSED record
  ces : Nat
  luns : Nat
  planes : Nat
  cell : Nat
  blocksPerLun : Nat
  pagesPerBlock : Nat
  opPct : Nat                     -- over-provisioning in force
  factoryBad : List Nat
  blocks : Map Block
  map : Map MapEnt
  pack : Map (Nat × Nat)          -- channel's packing point: logical unit and offset
  queuedUnits : Map Nat           -- units queued for programming by channel
  units : Map UnitMeta            -- programmed units by PUN
  mapHome : Map (List Nat)        -- map blocks that FORMAT wrote, by channel
  segDir : Map Nat                -- PUNs of segments written back since FORMAT
  segDurable : Map Nat            -- the same as the durable journal has it
  segSram : List Nat              -- cached segments, most recently used first
  segHbm : List Nat
  segDirty : Map Nat              -- with the first record that each has still to reflect in NAND
  misses : Nat                    -- segments read from NAND, not yet counted
  jpending : List JRec
  jdurable : List JRec
  jseq : Nat
  jpages : Nat                    -- journal pages programmed
  ckptAt : Nat                    -- sequence of the last CKPT
  reserveUsed : Map Nat           -- by target
  calibrated : Map Nat            -- time of the last ZQ CALIBRATION by target
  placed : Map (List (Nat × Nat)) -- logical units given out: each copy in the unit, by its tag, with the PUN programmed for it
  buffered : Nat                  -- bytes in write buffers
  collecting : List Nat           -- channels whose collection runs (R222)
  moves : Map Move                -- by channel: the block it relocates (R223)
  erases0 : Nat                   -- erases of every block at formats
  badAtFormat : Nat               -- blocks that were bad at the last format
  slc : Option (Nat × Nat)        -- pseudo-SLC feature: SET FEATURES address and parameter bytes (Table 16-4)
  retry : Map (Nat × Nat)         -- read-retry level to feature address and parameter bytes (Table 16-4)
deriving DecidableEq, Repr

/-- A message or write a connection is sending (R241, R257). -/
structure TxMsg where
  msg : Nat
  isWrite : Bool
  fin : Bool
  first : Nat                     -- first PSN
  last : Nat                      -- last PSN
  cid : Nat
  port : Nat
  qp : Nat                        -- queue pair of the completion; 65535 for none
  err : Nat                       -- worst CODE returned (0 OK)
  stream : Nat                    -- mirrored stream whose Buoy it carries, key + 1; 0 for none
  buoy : Nat
  page : Nat                      -- page whose lending or seal it ends; 0 for none
  seals : Bool
deriving DecidableEq, Repr

/-- A packet sent and not yet acknowledged. -/
structure TxPkt where
  psn : Nat
  addr : Bytes                    -- IPv6 destination
  path : Nat
  kind : Nat                      -- source kind (Table 11-1)
  hdr : Bytes
  payload : Bytes
deriving DecidableEq, Repr

/-- Connection states (Table 10-4). -/
inductive CState where
  | closed | connecting | opened | closing | error
deriving DecidableEq, Repr

/-- A connection (R243 to R250, R255). -/
structure Conn where
  state : CState
  keeper : Bool
  node : Nat
  addr : Bytes                    -- where its packets go (R239, R243)
  part : Nat
  peer : Nat                      -- the peer's connection index
  closedAt : Nat
  nextPsn : Nat
  oldest : Nat                    -- A of R248
  nextMsg : Nat
  path : Nat
  pkts : List TxPkt               -- unacknowledged, oldest first
  msgs : List TxMsg
  waitq : List TxPkt              -- packets beyond the window
  txTotal : Nat
  errSince : Nat                  -- worst CODE of a non-FIN write since the last FIN (R257)
  rto : Nat                       -- current timeout in µs
  expiries : Nat
  timer : Nat                     -- local time at which the retransmission timer last started (R250)
  rxNext : Nat                    -- NEXT of R247
  rxGot : List Nat                -- received PSNs at or above NEXT
  rxSizes : Map Nat               -- WRITE payload bytes by PSN at or above NEXT
  inOrder : Nat                   -- in-order count (R255)
  refusedSince : Bool             -- a WRITE byte was refused since the last FIN completion
  unacked : Nat                   -- packets since the last ACK
  firstAt : Nat                   -- local time at which the first of them came (R249)
  lastRx : Nat                    -- PSN and MSG of the last packet, for APSN and AMSG
  lastMsg : Nat
  sack : Nat
deriving DecidableEq, Repr

/-- A registered region (R253): owner 256 is the Keeper. -/
structure RRegion where
  check : Nat
  loc : Nat                       -- 0 host A, 1 host B, 2 HBM
  base : Nat
  len : Nat
  owner : Nat
  fn : Nat
  finQp : Nat
  mem : Map Byte                  -- contents of an HBM region
deriving DecidableEq, Repr

/-- A FIN write whose completion waits (R256). -/
structure FinHold where
  conn : Nat
  total : Nat
  msg : Nat
  rkey : Nat
  len : Nat
  off : Nat                       -- the write's lowest offset in its region
  data : Bytes                    -- the record, of a write to a mirror target
deriving DecidableEq, Repr

/-- A partly received SEND (R251). -/
structure PartialSend where
  conn : Nat
  msg : Nat
  len : Nat
  cmd : Bool
  rkey : Nat
  off : Nat
  buf : Buffer
  part : Nat
  got : Nat
  data : Map Bytes
  drop : Nat                      -- CODE with which the message is dropped, 0 where it is placed
deriving DecidableEq, Repr

/-- The PFT engine (R236 to R262). -/
structure Pft where
  conns : Map Conn
  regions : Map RRegion
  finHold : List FinHold
  sends : List PartialSend
  nextHop : Map Bytes             -- resolved MAC by port
  portMode : Nat                  -- mode in force (R236)
  down : List Nat                 -- ports down
  degraded : Map Nat              -- port to the lanes a degraded port runs on, one bit each
  fogSeq : Nat
deriving DecidableEq, Repr

/-- A token bucket (R267, R270): tokens in units of 1/8000 byte, and when they were last brought up to date. -/
structure Bucket where
  tokens : Int
  last : Nat
deriving DecidableEq, Repr

/-- A frame waiting on a port (R263, R265). -/
structure Frame where
  what : Nat                      -- 0 a PFT packet, 1 Neighbor Solicitation, 2 Advertisement, 3 Echo Reply
  addr : Bytes                    -- IPv6 destination
  kind : Nat
  entity : Option Nat
  len : Nat
  hdr : Bytes                     -- the PFT header, or the address an Echo Reply comes from
  payload : Bytes
deriving DecidableEq, Repr

/-- A port's gate lists (R271). -/
structure Gate where
  op : List (Nat × Nat)           -- interval and gate bits
  cur : Nat
  curStart : Nat                  -- local time at which the entry came into force
  pend : Option (Nat × List (Nat × Nat))
deriving DecidableEq, Repr

/-- The traffic controller (R263 to R274). -/
structure Tc where
  classBuckets : Map Bucket       -- port × 8 + class
  entBuckets : Map Bucket         -- port × 512 + entity
  policers : Map Bucket           -- partition
  deficits : Map Nat              -- (port × 8 + class) × 512 + entity
  queues : Map (List Frame)       -- port × 8 + class
  gates : Map Gate
  turn : Map Nat                  -- port × 8 + class: the entity whose turn it is
deriving DecidableEq, Repr

/-- A secured session (R312). -/
structure Session where
  keys : Bytes
  established : Bool
  seqNo : Nat
  lastHb : Nat
deriving DecidableEq, Repr

/-- The security processor (R302 to R316, R328). -/
structure Sec where
  keys : Map KeySlot
  owner : Option Nat
  busy : Bool
  resp : Bool
  len : Nat
  rlen : Nat
  lastWrite : Nat
  version : Bool                  -- GET_VERSION done
  caps : Bool
  algs : Bool
  transcript : Bytes
  sessions : Map Session
  rootLost : List Nat             -- partitions whose root counter was lost (Table 14-1)
  versions : Map Nat              -- partition × 2^40 + metadata block to the block's version (R310)
  roots : Map Nat                 -- partition × 2^40 + version block to its root counter (R310)
deriving DecidableEq, Repr

/-- A change-log record (R324). -/
structure LogRec where
  seq : Nat
  boot : Nat
  master : Nat
  kind : Nat
  target : Nat
  time : Nat
  offset : Nat
  old : Nat
  new : Nat
  link : Bytes
deriving DecidableEq, Repr

/-- The change log (R323 to R327). -/
structure Log where
  recs : List LogRec              -- newest first
  seq : Nat                       -- SEQ of the newest
  head : Bytes
  ckpt : Option (Nat × Bytes)     -- checkpoint being written: SEQ and head
  due : Option (Nat × Bytes)      -- a later one that fell due meanwhile
  ckptIdx : Nat                   -- next checkpoint slot (R380)
  digestDue : Bool                -- the access digest is being recomputed (R320)
  digest : Option Bytes           -- ACC_DIGEST; none while it is that of the reset tables
  marks : Map (Option LogRec)     -- by master: the record that LOG_SEL_LO has latched, none for a miss (R330)
deriving DecidableEq, Repr

/-- What a peer's Beacons have told (R354). -/
structure Peer where
  fd : Nat
  role : Nat
  nand : Nat
  last : Nat
  silent : Bool
  listsMe : Bool
  boot : Nat
  epoch : Nat
deriving DecidableEq, Repr

/-- Fault, spare and mirror bookkeeping (R333 to R355). -/
structure Res where
  keeperPairs : Nat               -- pairs in service
  keeperSpare : Bool
  barriers : List (Nat × List Nat)   -- newest first: last node, contributing remote nodes
  suspects : List Nat
  marginRaised : Map Nat          -- kind × 2^16 + index: raised, with the time since when it stood clear
  setLost : List (Nat × Nat)      -- unit sets that have restarted once: request, set (Table 14-1)
  selfListed : List Nat           -- peers whose last Beacon lists this node as SUSPECT (R352)
  peers : Map Peer
  rowErrors : Map (List Nat)      -- (stack × 32 + pseudo-channel) × 2^32 + row: times
  remapped : List Nat
  armed : Map (Nat × Nat)         -- page to armed injection: kind, target (R411)
  failedPaths : List Nat
  scrubAt : Nat
  beaconAt : Nat                  -- local time at which the last Beacons were sent (R354)
deriving DecidableEq, Repr

/-- A forwarding stub (R364). -/
structure Stub where
  conv : Nat
  node : Nat
  at_ : Nat
deriving DecidableEq, Repr

/-- A role change that runs (R358). -/
structure RoleChange where
  old : Nat
  new : Nat
  req : Nat
  merges : List Nat               -- MERGEs accepted before step 1
  graceMs : Nat
  start : Nat
  reclaims : Bool                 -- step 4 is still to come
deriving DecidableEq, Repr

/-- Roles and compositions (R356 to R371). -/
structure Cmp where
  stubs : List Stub               -- oldest first
  change : Option RoleChange
  since : Map Nat                 -- slot to the local time its VALID was set
  rem : Map Nat                   -- remainders of the byte-second samples
  sampledAt : Nat                 -- local time of the last sample (R366)
deriving DecidableEq, Repr

/-- Power controller state beyond its registers (R427, R433, R437), and the register that the management SMBus has selected (R440). -/
structure Pwr where
  bucket : Int                    -- 0.1 mJ
  target : Nat                    -- position being moved to
  rising : Bool                   -- waiting for the regulator to settle
  holdoff : Bool                  -- a rise failed: wait one decision (R427)
  profileNext : Option Nat        -- a permitted profile that waits for the next decision (R434)
  profileBy : Nat                 -- the master whose write asked for it
  thermal : Bool
  nearThermal : Bool              -- within 5 °C of a threshold
  hotTemp : Nat                   -- the temperature that makes the condition, and its sensor (R437)
  hotFrom : Nat
  raised : Bool                   -- THERMAL_THROTTLE has been raised for this condition
  energyRem : Nat                 -- 0.1 mJ not yet counted
  smbusSel : Nat
  decidedAt : Nat                 -- local time at which the last decision period ended (R27, R433)
deriving DecidableEq, Repr

/-- Reset domains (R389 to R391) and the serial memory with its window (R373 to R381, R394). -/
structure Boot where
  smem : Map Byte                 -- serial memory; unlisted bytes read as erased (log entry 6)
  smOp : Option (Nat × Nat × Nat) -- running window operation: op, address, status
  count : Nat                     -- boot count
  bootIdx : Nat
  bootedSlot : Nat
  resetting : List Nat            -- domains in reset
  lostCredits : Map Nat           -- domain to credits lost (R391)
  waiting : List (Nat × Src × Bytes)   -- commands that wait for a quiesced domain: opcode, source, block (R389)
  imageSeq : Nat
  fallback : Bool
  recovery : Bool
  blankCfg : Bool
  skipped : Nat                   -- configuration records skipped
  stalledPlls : List Nat
  fwDigest : Bytes
  cfgDigest : Bytes
deriving DecidableEq, Repr

/-- The state of the node. -/
structure State where
  pending : List Instr            -- commands that are waiting, first in first out
  out : List Output               -- what the block has sent, oldest first (log entry 4)
  fresh : Nat                     -- the model's own counter of free values (log entry 5)
  time : Nat                      -- local time counter, ns (R416)
  phase : Phase
  fuses : Fuses
  pins : Pins
  regs : Map W32                  -- registers that differ from their reset value
  sels : Map W32                  -- per-master selectors (R414)
  cnt : Map Nat                   -- 64-bit usage counters (R368)
  latch : Map W32                 -- per-master latched high halves (R415)
  rights : Map Nat                -- rights that differ from Table 13-6 (R317)
  parts : Map Partition
  convs : Map Conv
  streams : Map Stream            -- handle × 256 + layer
  pages : Map Page
  masks : Map MaskObj
  reqs : Map Req
  nextReq : Nat
  done : List (Nat × Nat × Nat)   -- completed-request record, newest first: REQ_ID, master, status (R163)
  queues : Map Queue              -- port × 4,096 + queue pair
  eqs : Map EventQueue            -- port × 64 + function
  srqs : Map Srq                  -- partition
  primary : Nat
  peerLost : List Nat             -- ports on whose pages PEER_LOST stands latched (R297)
  ports : Map Port
  pods : Map Pod                  -- region × 28 + pod
  regions : Map Region
  links : Map Link           -- by die
  prof : Profiles
  mex : Mex
  tier : Tier
  flash : Flash
  pft : Pft
  tc : Tc
  sec : Sec
  log : Log
  res : Res
  cmp : Cmp
  pwr : Pwr
  boot : Boot
  lastMsg : Option Nat            -- time of the last INT summary message (R420)
  msgPending : Bool               -- a summary message waits for HOLDOFF_US
deriving DecidableEq, Repr

/-! The parts of the reset state. A value that the spec gives no reset value for is zero or empty (DESIGN CHOICE,
log entry 3). -/

/-- A Match Engine with an empty directory and rule table. -/
def Mex.empty : Mex :=
  { dir := [], keys := [], rules := [], changes := [], shiftPos := 0, spared := none, retired := [], parity := [] }

/-- A profile store that holds nothing (RESIDENT P0 is put there by boot, R115). -/
def Profiles.empty : Profiles :=
  { slots := [], lastVer := [], deleting := [], loading := none, manifests := [], storeGib := 0 }

/-- A Tier Manager without grants. -/
def Tier.empty : Tier := { grantsOut := [], grantsIn := [], fetches := [], suspended := [], relieving := [], asked := [] }

/-- A flash controller OFFLINE on a board without NAND (R228; log entry 7: what the board carries). -/
def Flash.empty : Flash :=
  { st := 0, formatted := false, mounting := false, formatting := false, worn := false, closed := false, ces := 0,
    luns := 0, planes := 0, cell := 0, blocksPerLun := 0, pagesPerBlock := 0, opPct := 7, factoryBad := [],
    blocks := [], map := [], pack := [], queuedUnits := [], units := [], mapHome := [], segDir := [], segDurable := [], segSram := [],
    segHbm := [], segDirty := [], misses := 0, jpending := [], jdurable := [], jseq := 0, jpages := 0, ckptAt := 0, reserveUsed := [],
    calibrated := [], placed := [], buffered := 0, collecting := [], moves := [], erases0 := 0, badAtFormat := 0, slc := none, retry := [] }

/-- A PFT engine without connections, regions or neighbours. -/
def Pft.empty : Pft :=
  { conns := [], regions := [], finHold := [], sends := [], nextHop := [], portMode := 0, down := [], degraded := [],
    fogSeq := 0 }

/-- A traffic controller with nothing queued. -/
def Tc.empty : Tc :=
  { classBuckets := [], entBuckets := [], policers := [], deficits := [], queues := [], gates := [], turn := [] }

/-- A security processor without keys or sessions. -/
def Sec.empty : Sec :=
  { keys := [], owner := none, busy := false, resp := false, len := 0, rlen := 0, lastWrite := 0, version := false,
    caps := false, algs := false, transcript := [], sessions := [], rootLost := [],
    versions := [], roots := [] }

/-- An empty change log: the head before the first record is 32 zero bytes (R325). -/
def Log.empty : Log :=
  { recs := [], seq := 0, head := List.replicate 32 0, ckpt := none, due := none, ckptIdx := 0, digestDue := false, digest := none,
    marks := [] }

/-- Fault bookkeeping at manufacture: two Keeper pairs in service and the spare one (R340). -/
def Res.empty : Res :=
  { keeperPairs := 2, keeperSpare := true, barriers := [], suspects := [], marginRaised := [], setLost := [], selfListed := [],
    peers := [], rowErrors := [], remapped := [], armed := [], failedPaths := [], scrubAt := 0,
    beaconAt := 0 }

/-- No stubs and no role change. -/
def Cmp.empty : Cmp := { stubs := [], change := none, since := [], rem := [], sampledAt := 0 }

/-- A power controller with its bucket full (Table 19-9: B resets to the depth of P480), moving nowhere. -/
def Pwr.empty : Pwr :=
  { bucket := 240000, target := 0, rising := false, holdoff := false, profileNext := none, profileBy := 0, thermal := false,
    nearThermal := false, hotTemp := 0, hotFrom := 0, raised := false, energyRem := 0, smbusSel := 0, decidedAt := 0 }

/-- An erased serial memory and no domain in reset. -/
def Boot.empty : Boot :=
  { smem := [], smOp := none, count := 0, bootIdx := 0, bootedSlot := 0, resetting := [], lostCredits := [], waiting := [], imageSeq := 0,
    fallback := false, recovery := false, blankCfg := false, skipped := 0,
    stalledPlls := [], fwDigest := [], cfgDigest := [] }

/-- The fuses: fixed at manufacture (R1, R384); every part is in the production lifecycle state, with DEBUG_OPEN and OPKEY clear (R443). -/
def Fuses.reset : Fuses :=
  { serial := Config.serial % 2 ^ 37, liquid := Config.liquid, stepA1 := Config.stepA1, production := true, debugOpen := false, opKey := none }

/-- The node at power-off with SYS_RST_N low: every register at its reset value and nothing held. POWER_ON boots
it (R372, R383; log entry 1 says how commands come to run). -/
def State.reset : State :=
  { pending := [], out := [], fresh := 0, time := 0, phase := .off, fuses := Fuses.reset,
    pins := { sysRstN := false, pwrFailN := true, thermTripN := true, ref100 := true, ref156 := true },
    regs := [], sels := [], cnt := [], latch := [], rights := [], parts := [], convs := [], streams := [],
    pages := [], masks := [], reqs := [], nextReq := 0, done := [], queues := [], eqs := [], srqs := [],
    primary := 0, peerLost := [], ports := [], pods := [], regions := [], links := [], prof := .empty, mex := .empty,
    tier := .empty, flash := .empty, pft := .empty, tc := .empty, sec := .empty, log := .empty, res := .empty,
    cmp := .empty, pwr := .empty, boot := .empty, lastMsg := none, msgPending := false }

/-- What an unlisted byte of serial memory reads as: erased (log entry 6). -/
def smErased : Byte := 0xFF

/-- The canonical form of the serial memory: addresses strictly rising, below 64 MiB (R373), and no byte listed
that equals an erased one. -/
def Memory.wf (m : Map Byte) : Bool :=
  m.wf && m.all fun c => decide (c.1 < 0x4000000) && c.2 != smErased

end Sys2Proof.Machine
end

