-- ==== Sys2Proof/Machine/Geometry.lean ====
section
/-! DEFINITION. What a profile image says (R102 to R106), the shape of the pages stored under it (R48, R130 to R132), the
quantiser's work on a token and at seal (R126, R127, R93, R94) and the reading of stored elements and sketches
(R95, R137). -/
namespace Sys2Proof.Machine

/-- The header fields of a profile image (Table 4-4). -/
structure Geo where
  id : Nat
  layers : Nat
  dense : Bool
  sfmt : Nat
  evar : Nat
  hold : Bool
  h : Nat
  kv : Nat
  cc : Nat
  cp : Nat
  dk : Nat
  dv : Nat
  d : Nat
  pfmt : Nat
  hiprec : Bool
  nstages : Nat
deriving DecidableEq, Repr

/-- Reads the header of an image (Table 4-4). -/
def Geo.ofImage (b : Bytes) : Geo :=
  { id := leAt b 8 2, layers := leAt b 10 2, dense := decide (byteAt b 12 = 1), sfmt := byteAt b 13, evar := byteAt b 14,
    hold := decide (byteAt b 15 = 1), h := leAt b 16 2, kv := leAt b 18 2, cc := leAt b 20 2, cp := leAt b 22 2,
    dk := leAt b 24 2, dv := leAt b 26 2, d := leAt b 28 2, pfmt := byteAt b 30, hiprec := bitOf (byteAt b 31) 0,
    nstages := byteAt b 32 }

namespace Geo

/-- Latent channels C, or the 2 × Kv × d elements of a dense token (R120). -/
def channels (g : Geo) : Nat := if g.dense then 2 * g.kv * g.d else g.cc + g.cp

/-- Channels a sketch covers (R138). -/
def sketchChannels (g : Geo) : Nat := if g.dense then g.kv * g.d else g.cc + g.cp

/-- O elements per entry (Table 3-8, DV). -/
def outDim (g : Geo) : Nat := if g.dense then g.d else g.dv

/-- Query elements per head (R58, Dq). -/
def queryDim (g : Geo) : Nat := if g.dense then g.d else g.dk + g.cp

/-- Query heads per KV head. -/
def group (g : Geo) : Nat := g.h / max 1 g.kv

end Geo

/-! ## Sections of an image -/

/-- A quantisation-table entry's PQ4_PSCALE, as an exact value (R105). -/
def imgPscale (b : Bytes) (layer : Nat) : Dy :=
  match decodeIeee spec32 (leAt b (leAt b 48 4 + 16 * layer) 4) with | .fin _ v => v | _ => .zero

/-- A quantisation-table entry's CLIP (R105). -/
def imgClip (b : Bytes) (layer : Nat) : Dy :=
  match decodeIeee spec32 (leAt b (leAt b 48 4 + 16 * layer + 4) 4) with | .fin _ v => v | _ => .zero

/-- A stage entry (Table 4-6). -/
structure Stage where
  op : Nat
  perhead : Bool
  p16 : Nat
  a : W32
  b : W32
  c : Nat
deriving DecidableEq, Repr

/-- Stage `i` of the program. -/
def imgStage (b : Bytes) (i : Nat) : Stage :=
  let o := leAt b 40 4 + 16 * i
  { op := byteAt b o, perhead := bitOf (byteAt b (o + 1)) 0, p16 := leAt b (o + 2) 2,
    a := BitVec.ofNat 32 (leAt b (o + 4) 4), b := BitVec.ofNat 32 (leAt b (o + 8) 4), c := leAt b (o + 12) 4 }

/-- The program's entries up to END (Table 4-7). -/
def imgProgram (b : Bytes) : List Stage :=
  ((List.range (byteAt b 32)).map (imgStage b)).takeWhile fun st => st.op != 0

/-- An FP32 of the AUX section (offsets are from its start, R106). -/
def auxF32 (b : Bytes) (off : Nat) : W32 := BitVec.ofNat 32 (leAt b (leAt b 56 4 + off) 4)

/-- An FP16 of the AUX section, widened exactly. -/
def auxF16 (b : Bytes) (off : Nat) : W32 := F32.write (decodeIeee spec16 (leAt b (leAt b 56 4 + off) 2))

/-- The bytes of one row of an up-projection matrix (R104). -/
def projRowBytes (g : Geo) : Nat := if g.pfmt = 1 then 2 * g.cc else g.cc + g.cc / 32

/-- A row of an up-projection matrix: its element values and, per 32 elements, its scale (R104), all exact; `sec` is the
section's offset, `rows` the rows of each matrix. A scale byte 0xFF is NaN. -/
def projRow (b : Bytes) (g : Geo) (sec rows layer head row : Nat) : List Fl × List Fl :=
  let o := sec + ((layer * g.h + head) * rows + row) * projRowBytes g
  if g.pfmt = 1 then
    ((List.range g.cc).map fun i => decodeIeee specBf16 (leAt b (o + 2 * i) 2),
     (List.range (g.cc / 32)).map fun _ => Fl.one)
  else
    ((List.range g.cc).map fun i =>
        let e := decodeFin ⟨4, 3, 7⟩ (byteAt b (o + i))
        if byteAt b (o + i) % 128 = 127 then .nan else .fin e.1 e.2,
     (List.range (g.cc / 32)).map fun k =>
        match e8m0Val (byteAt b (o + g.cc + k)) with | some v => .fin false v | none => .nan)

/-- Offset of the key up-projection section. -/
def imgWuk (b : Bytes) : Nat := leAt b 64 8
/-- Offset of the value up-projection section. -/
def imgWuv (b : Bytes) : Nat := leAt b 80 8

/-! ## Sizes -/

/-- Scale bytes per token: one per 32 channels, none for PQ8 (R130, R131). -/
def scaleBytes (g : Geo) (fmt : Nat) : Nat := if fmt = 0xF then 0 else g.channels / 32

/-- Bytes of the parameter area (R130). -/
def paramBytes (g : Geo) (fmt : Nat) : Nat :=
  if fmt = 0xE then 2 * (g.channels / 32) else if fmt = 0xF then 4 * g.channels else 0

/-- Element bytes of a token's row. -/
def rowBytes (g : Geo) (fmt : Nat) : Nat := g.channels * elemBits fmt / 8

/-- The stored size of a page (R130, R131). -/
def storedBytes (g : Geo) (fmt : Nat) : Nat := 256 * (rowBytes g fmt + scaleBytes g fmt) + paramBytes g fmt

/-- The bytes of a BF16 tail (R132). -/
def tailBytes (g : Geo) : Nat := 256 * 2 * g.channels

/-- 4 KiB blocks (R48). -/
def blocksOf (bytes : Nat) : Nat := ceilDiv bytes 4096

/-- Bytes of a sketch (R138). -/
def sketchBytes (g : Geo) : Nat := 2 * g.sketchChannels

/-- 64-byte sketch store units of a page's sketch (R140). -/
def sketchUnits (g : Geo) : Nat := ceilDiv (sketchBytes g) 64

/-- Bytes of a page's ciphertext (R307) and of its NAND form: ciphertext, tags and sketch. -/
def cipherBytes (g : Geo) (fmt : Nat) : Nat := roundUp (storedBytes g fmt) 1024
def nandBytes (g : Geo) (fmt : Nat) : Nat := cipherBytes g fmt + cipherBytes g fmt / 1024 * 8 + sketchBytes g

/-- The image of a whole page in the page buffers (R65): the stored form or, for a page bound as open under HOLD, its
tail. -/
def imageBytes (g : Geo) (fmt : Nat) (tail : Bool) : Nat := if tail then tailBytes g else storedBytes g fmt

/-! ## The quantiser -/

/-- The elements of token `i` of appended data (R120), exactly converted (R126 step 1). -/
def tokenElems (dfmt chans : Nat) (data : Bytes) (i : Nat) : List Fl :=
  let w := dataBytes dfmt
  (List.range chans).map fun c => decodeData dfmt (leAt data ((i * chans + c) * w) w)

/-- A token's row under codes 0x3 to 0xE (R126, R127). `ps` are the group scales of PQ4, and `sr ch` is the draw of channel
`ch`, none for rounding to nearest even. -/
def quantToken (fmt evar : Nat) (clip : Dy) (ps : List Dy) (sr : Nat → Option Nat) (xs : List Fl) : Row :=
  let bs := (List.range (xs.length / 32)).map fun k => (xs.drop (32 * k)).take 32
  let qs := (List.range bs.length).map fun k =>
    let block := bs.getD k []
    let draw (i : Nat) : Option Nat := sr (32 * k + i)
    if fmt = 0xE then quantBlockPq4 clip (ps.getD k (.ofNat 1)) block draw
    else quantBlockMx fmt evar clip block draw
  { elems := packElems (elemBits fmt) (qs.flatMap (·.1)), scales := qs.map fun q => BitVec.ofNat 8 q.2 }

/-- A token's BF16 tail row (R126, HOLD). -/
def tailRow (xs : List Fl) : Bytes := xs.flatMap fun x => toLE 2 (bf16Tail x)

/-- The elements of a tail row. -/
def tailElems (chans : Nat) (row : Bytes) : List Fl :=
  (List.range chans).map fun c => decodeIeee specBf16 (leAt row (2 * c) 2)

/-- Positive values to FP16, upward, saturating at 65,504 (R93). -/
def f16Up (v : Dy) : Nat :=
  let q := roundDy .up 11 (-24) v
  if (Dy.ofNat 65504).lt q then 0x7BFF else encodeFin spec16 false q

/-- The exact value of finite FP16 bits, zero where they are not finite. -/
def f16Dy (bits : Nat) : Dy := (f16Val bits).getD .zero

/-- The group scale of PQ4_PSCALE under ARRIVAL (R93): the entry rounded upward to FP16, for every group. -/
def arrivalParams (g : Geo) (img : Bytes) (layer : Nat) : Bytes :=
  (List.range (g.channels / 32)).flatMap fun _ => toLE 2 (f16Up (imgPscale img layer))

/-- The group scales of a parameter area. -/
def groupScales (g : Geo) (params : Bytes) : List Dy :=
  (List.range (g.channels / 32)).map fun k => f16Dy (leAt params (2 * k) 2)

/-- The PQ4 group scale at seal (R93): the amax of the group over the counted slots whose block in the group holds no NaN,
divided by 2,880, rounded upward to FP16; 1 where that amax is zero or no such slot is. Values are clamped to CLIP first. -/
def sealGroupScale (clip : Dy) (k : Nat) (tail : List (List Fl)) : Nat :=
  let parts := tail.filterMap fun xs => ((xs.drop (32 * k)).take 32).mapM finiteOf
  let m := amaxOf ((parts.flatten.map (clipTo clip)).map (·.2))
  if m.isZero then 0x3C00 else
    let q := f16Quot .up m (.ofNat 2880)
    if q % 0x8000 ≥ 0x7C00 then 0x7BFF else q

/-- The PQ8 parameters of a channel at seal (R94, R96): scale and zero point in FP16. A channel that holds a NaN has scale
0x7E00, and zero point 0; a channel of a page without a counted slot has both zero (DESIGN CHOICE, log entry 154: R96 and R127 give
neither). -/
def sealChannel (clip : Dy) (xs : List Fl) : Nat × Nat :=
  match xs.mapM finiteOf with
  | none => (0x7E00, 0)
  | some [] => (0, 0)
  | some (v :: vs) =>
    let ws := ((v :: vs).map (clipTo clip)).map (·.2)
    let hi := ws.foldl Dy.max (ws.headD .zero)
    let lo := ws.foldl Dy.min (ws.headD .zero)
    let z := f16Quot .nearest (hi.add lo) (.ofNat 2)
    let z' := if z % 0x8000 ≥ 0x7C00 then z / 0x8000 * 0x8000 + 0x7BFF else z
    if (hi.sub lo).isZero then (0, z')
    else
      let q := f16Quot .up (hi.sub lo) (.ofNat 254)
      (if q % 0x8000 ≥ 0x7C00 then 0x7BFF else q, z')

/-- A PQ8 element at seal (R94): (x − z) / s, rounded and clamped; one of a channel that holds a NaN is stored as 0 (DESIGN CHOICE, log
entry 154). -/
def sealPq8 (clip : Dy) (sc zp : Nat) (sr : Option Nat) (x : Fl) : Nat :=
  match finiteOf x with
  | none => 0
  | some v =>
    if sc = 0 ∨ sc = 0x7E00 then 0
    else
      let w := (clipTo clip v).2.sub (f16Dy zp)
      let y := scaled (decide (w.m < 0), w) (f16Dy sc)
      (elemOf 0xF 0).quantise sr y.1 y.2

/-- Seals a BF16 tail into the stored form (R126, R127): the parameter area and the rows of the counted slots. `sr slot ch`
is a draw under stochastic rounding. -/
def sealTail (g : Geo) (img : Bytes) (layer fmt evar : Nat) (sr : Nat → Nat → Option Nat) (tail : Map Bytes) :
    Bytes × Map Row :=
  let clip := imgClip img layer
  let rows : Map (List Fl) := tail.map fun kv => (kv.1, tailElems g.channels kv.2)
  if fmt = 0xF then
    let ch := (List.range g.channels).map fun c =>
      sealChannel clip (rows.map fun kv => kv.2.getD c (.fin false .zero))
    let params := (ch.flatMap fun p => toLE 2 p.1) ++ (ch.flatMap fun p => toLE 2 p.2)
    (params, rows.map fun kv =>
      (kv.1, { elems := packElems 8 ((List.range g.channels).map fun c =>
                 let p := ch.getD c (0, 0)
                 sealPq8 clip p.1 p.2 (sr kv.1 c) (kv.2.getD c (.fin false .zero))), scales := [] }))
  else
    let params := if fmt = 0xE then
        (List.range (g.channels / 32)).flatMap fun k => toLE 2 (sealGroupScale clip k (rows.map (·.2)))
      else []
    (params, rows.map fun kv => (kv.1, quantToken fmt evar clip (groupScales g params) (sr kv.1) kv.2))

/-! ## Reading stored elements -/

/-- The exact value a stored element decodes to, none for NaN (R89 to R96). -/
def storedVal (g : Geo) (fmt evar : Nat) (params : Bytes) (r : Row) (c : Nat) : Option Dy :=
  let code := elemAt (elemBits fmt) r.elems c
  if fmt = 0xF then
    let s := leAt params (2 * c) 2
    if s = 0x7E00 then none
    else some (((f16Dy s).mul ((elemOf fmt evar).decode code)).add (f16Dy (leAt params (2 * g.channels + 2 * c) 2)))
  else
    let sb := byteAt r.scales (c / 32)
    if sb = 0xFF then none
    else if fmt = 0xE then
      some (((f16Dy (leAt params (2 * (c / 32)) 2)).mul ((ue4m4Val sb).getD .zero)).mul ((elemOf fmt evar).decode code))
    else some (((e8m0Val sb).getD .zero).mul ((elemOf fmt evar).decode code))

/-- A page's sketch (R137, R138): for each covered channel the smallest and the largest decoded value over the rows,
rounded outward; a channel with a NaN spans everything. A page with no row has no range: the whole line (DESIGN CHOICE,
log entry 21). -/
def buildSketch (g : Geo) (fmt evar : Nat) (params : Bytes) (rows : Map Row) : Bytes :=
  let ch := (List.range g.sketchChannels).map fun c => (rows.map fun kv => storedVal g fmt evar params kv.2 c).mapM id
  let pick (f : List Dy → Nat) (d : Nat) : Bytes := ch.map fun o => match o with
    | some (v :: vs) => BitVec.ofNat 8 (f (v :: vs))
    | _ => BitVec.ofNat 8 d
  pick (fun vs => sketchRound false (vs.foldl Dy.min (vs.headD .zero))) 0xFC
    ++ pick (fun vs => sketchRound true (vs.foldl Dy.max (vs.headD .zero))) 0x7C

/-- The body of a page, 256 slots of elements of e bits with their scale bytes: two halves for a latent page (R130), a block for each KV
head of a dense one, whose key or value row of a slot has `sb` scale bytes (R131). -/
def layRows (g : Geo) (e sb : Nat) (row : Nat → Row) : Bytes :=
  if g.dense then
    let eb := g.d * e / 8
    (List.range g.kv).flatMap fun k =>
      let part (f : Row → Bytes) (at_ n : Nat) : Bytes := (List.range 256).flatMap fun i => slice (f (row i)) at_ n
      part Row.elems (k * eb) eb ++ part Row.elems ((g.kv + k) * eb) eb
        ++ part Row.scales (k * sb) sb ++ part Row.scales ((g.kv + k) * sb) sb
  else
    [0, 1].flatMap fun h =>
      let part (f : Row → Bytes) : Bytes := (List.range 128).flatMap fun i => f (row (128 * h + i))
      part Row.elems ++ part Row.scales

/-- Zeros up to the next 1 KiB (R307). -/
def padUnits (b : Bytes) : Bytes := b ++ zeros (roundUp b.length 1024 - b.length)

/-- The plain bytes of a stored page (R130, R131, R307), padded with zeros to 1 KiB; `blank slot` are the bytes of a slot
never written (R132: no defined value). -/
def pageImage (g : Geo) (fmt : Nat) (params : Bytes) (rows : Map Row) (blank : Nat → Bytes) : Bytes :=
  let row (i : Nat) : Row := match Map.find? rows i with
    | some r => r
    | none => { elems := slice (blank i) 0 (rowBytes g fmt), scales := slice (blank i) (rowBytes g fmt) (scaleBytes g fmt) }
  padUnits (layRows g (elemBits fmt) (if fmt = 0xF then 0 else g.d / 32) row ++ params)

/-- The plain bytes of a BF16 tail under HOLD: the layout of R130 or R131 with e = 16 and no scale bytes (R132). -/
def tailImage (g : Geo) (tail : Map Bytes) (blank : Nat → Bytes) : Bytes :=
  padUnits (layRows g 16 0 fun i => { elems := (Map.find? tail i).getD (slice (blank i) 0 (2 * g.channels)), scales := [] })

end Sys2Proof.Machine
end

