-- ==== Sys2Proof/Machine/Attention.lean ====
section
/-! DEFINITION. The arithmetic of the read paths (R67 to R71, R95), the pipeline stages (R69, R107), the merge and
normalisation of partials (R144, R145) and the bound of a page (R78, R139). -/
namespace Sys2Proof.Machine

/-! ## Partials -/

/-- The empty entry (R82). -/
def emptyTriple (n : Nat) : Triple := { m := F32.negInf, l := 0, o := List.replicate n 0, nan := false }

/-- The NaN entry (R71). -/
def nanTriple (n : Nat) : Triple := { m := F32.nan, l := F32.nan, o := List.replicate n F32.nan, nan := true }

/-- The factor e^(mi − m), zero for −∞ (R144). -/
def mergeFactor (mi m : W32) : W32 := if mi = F32.negInf then 0 else F32.exp (F32.sub mi m)

/-- The merge of two entries (R144): NaN absorbs, the empty entry is the identity. -/
def mergeTriple (x y : Triple) : Triple :=
  if x.nan ∨ y.nan then nanTriple (max x.o.length y.o.length)
  else if x.m = F32.negInf then y
  else if y.m = F32.negInf then x
  else
    let m := F32.max x.m y.m
    let a := mergeFactor x.m m
    let b := mergeFactor y.m m
    { m, l := F32.add (F32.mul a x.l) (F32.mul b y.l),
      o := (x.o.zip y.o).map fun p => F32.add (F32.mul a p.1) (F32.mul b p.2), nan := false }

/-- Normalisation (R145, R83). -/
def normalise (x : Triple) : Triple :=
  if x.nan then x
  else if F32.lt 0 x.l then
    { m := F32.addFl x.m (F32.ln x.l), l := F32.one, o := x.o.map fun v => F32.div v x.l, nan := false }
  else x

/-- Whether an entry attended no slot. -/
def Triple.isEmpty (x : Triple) : Bool := !x.nan && x.m == F32.negInf

/-! ## Operands -/

/-- A converted operand (R67): element values and the power-of-two scale, exact. -/
structure Operand where
  vals : List Fl
  scale : Fl
deriving DecidableEq, Repr

/-- The values an operand stands for. -/
def Operand.exact (op : Operand) : List Fl := op.vals.map fun v => v.mul op.scale

/-- The exponent of the scale that puts a largest magnitude in [224, 448), 0 where it is zero (R67). -/
def operandExp (amax : Dy) : Int :=
  if amax.isZero then 0
  else
    let k := amax.log2 - 7
    if ((Dy.ofNat 224).scale k).le amax then k else k - 1

/-- A finite value rounded to nearest even to BF16. -/
def toBf16 (x : Fl) : Fl := decodeIeee specBf16 (encodeIeee specBf16 x)

/-- A finite value rounded to nearest even to FP8-E4M3. -/
def toE4m3 (neg : Bool) (v : Dy) : Fl := .fin neg (e4m3.roundTo .nearest v)

/-- Converts an operand (R67): to FP8-E4M3 under one scale, or to BF16 under the high-precision flag; none where an
element is infinite or NaN. -/
def convert (hiprec : Bool) (xs : List Fl) : Option Operand :=
  (xs.mapM finiteOf).map fun vs =>
    if hiprec then { vals := vs.map fun v => toBf16 (.fin v.1 v.2), scale := Fl.one }
    else
      let k := operandExp (amaxOf (vs.map (·.2)))
      { vals := vs.map fun v => toE4m3 v.1 (v.2.scale (-k)), scale := .fin false (.pow2 k) }

/-- Reads FP32 values as operand elements. -/
def asFl (xs : List W32) : List Fl := xs.map F32.read

/-- Exact products summed in FP32 within one scale block (R68, R97). -/
def dot (xs ys : List Fl) : W32 := F32.sumFl ((xs.zip ys).map fun p => p.1.mul p.2)

/-- A block of stored elements: their values before scales, and the scale of the block (R88, R92), exact. -/
structure SBlock where
  vals : List Fl
  scale : Fl
deriving DecidableEq, Repr

/-- The scale of the block that holds channel `c` of a stored row: the product of PQ4's two scales (R92), one for PQ8, whose
channels scale apart (R95), NaN for a NaN scale byte. -/
def blockScale (fmt : Nat) (params : Bytes) (r : Row) (c : Nat) : Fl :=
  let sb := byteAt r.scales (c / 32)
  if fmt = 0xF then Fl.one
  else if sb = 0xFF then .nan
  else if fmt = 0xE then .fin false (((ue4m4Val sb).getD .zero).mul (f16Dy (leAt params (2 * (c / 32)) 2)))
  else .fin false ((e8m0Val sb).getD .zero)

/-- The blocks of channels `lo` to `lo + n − 1` of a stored row (R68, R92): 32 channels each under their scale. -/
def storedBlocks (fmt evar : Nat) (params : Bytes) (r : Row) (lo n : Nat) : List SBlock :=
  (List.range (n / 32)).map fun k =>
    let c0 := lo + 32 * k
    { vals := (List.range 32).map fun i =>
        let v := (elemOf fmt evar).decode (elemAt (elemBits fmt) r.elems (c0 + i))
        .fin (decide (v.m < 0)) v,
      scale := blockScale fmt params r c0 }

/-- The blocks of a BF16 tail row: one, with no scale (R132). -/
def tailBlocksOf (row : Bytes) (lo n : Nat) : List SBlock :=
  [{ vals := (List.range n).map fun i => decodeIeee specBf16 (leAt row (2 * (lo + i)) 2), scale := Fl.one }]

/-- An operand against stored blocks (R68): each block's sum times its scale and the operand's, joined in FP32. -/
def score (q : Operand) (bs : List SBlock) : W32 :=
  let step (acc : List W32 × List Fl) (b : SBlock) : List W32 × List Fl :=
    let n := b.vals.length
    (acc.1 ++ [F32.mulFl (dot (acc.2.take n) b.vals) (b.scale.mul q.scale)], acc.2.drop n)
  F32.sum (bs.foldl step ([], q.vals)).1

/-! ## Stages -/

/-- Where a SCORE stage is applied: query head and the distance δ = QPOS − slot (R107). -/
structure At where
  head : Nat
  delta : Int
deriving DecidableEq, Repr

/-- A stage's operand a: per head from its table, or A (R106). -/
def stageA (img : Bytes) (st : Stage) (h : Nat) : W32 := if st.perhead then auxF32 img (st.c + 4 * h) else st.a

/-- The table entry T of POSBIAS and POSSCALE (R107). -/
def stageT (img : Bytes) (st : Stage) (delta : Int) : W32 :=
  auxF16 img (st.c + 2 * min (delta.toNat / 2 ^ bitsOf st.p16 8 4) (bitsOf st.p16 0 8))

/-- The operand b of POSBIAS (R106). -/
def stageB (img : Bytes) (st : Stage) (h : Nat) : W32 :=
  if st.perhead then auxF32 img (st.c + 4 * ((bitsOf st.p16 0 8 + 2) / 2) + 4 * h) else st.b

/-- r of TEMP (R107): 1 / a rounded to nearest even when the profile loads. -/
def tempOf (a : W32) : W32 :=
  match F32.value a with
  | .fin n v => if v.isZero then F32.posInf else F32.write (.fin n (quotient 24 (.ofNat 1) v))
  | _ => 0

/-- One SCORE stage on a logit (Table 4-7). -/
def scoreStage (img : Bytes) (p : At) (s : W32) (st : Stage) : W32 :=
  if st.op = 0x11 then F32.mul s (stageA img st p.head)
  else if st.op = 0x12 then F32.mul s (tempOf (stageA img st p.head))
  else if st.op = 0x13 then F32.softcap st.a s
  else if st.op = 0x14 then F32.add s (F32.mul (stageB img st p.head) (stageT img st p.delta))
  else if st.op = 0x15 then F32.min (F32.max s st.a) st.b
  else if st.op = 0x16 then F32.add s (auxF32 img (st.c + 4 * p.head))
  else if st.op = 0x17 then F32.mul s (stageT img st p.delta)
  else s

/-- The SCORE stages in program order (R69, R108). -/
def scoreStages (img : Bytes) (prog : List Stage) (p : At) (s : W32) : W32 := prog.foldl (scoreStage img p) s

/-- The VALUE stages on a value element (R69): VCLIP. -/
def valueStages (prog : List Stage) (v : Fl) : Fl :=
  prog.foldl (fun x st =>
    if st.op = 0x21 then
      let a := F32.value st.a
      if F32.ltFl a x then a else if F32.ltFl x a.neg then a.neg else x
    else x) v

/-- The VALUE stages on a reconstructed key (R107): KEYNORM; a key whose norm is zero is left unchanged, all zero. -/
def keyStages (prog : List Stage) (k : List W32) : List W32 :=
  prog.foldl (fun ks st =>
    if st.op = 0x22 then
      if ks.all fun x => (F32.read x) == .fin false .zero || (F32.read x) == .fin true .zero then ks
      else ks.map fun x => F32.div (F32.mul st.a x) (F32.norm ks)
    else ks) k

/-- Whether the program holds a VALUE stage. -/
def hasValueStage (prog : List Stage) : Bool := prog.any fun st => st.op == 0x21 || st.op == 0x22

/-- The OUTPUT stages on a partial (R69): OSCALE. -/
def outputStages (img : Bytes) (prog : List Stage) (h : Nat) (x : Triple) : Triple :=
  prog.foldl (fun t st => if st.op = 0x31 then { t with o := t.o.map fun v => F32.mul v (stageA img st h) } else t) x

/-- The FINAL stages on an entry before normalisation (R69, R145): SINK. -/
def finalStages (img : Bytes) (prog : List Stage) (h : Nat) (x : Triple) : Triple :=
  prog.foldl (fun t st =>
    if st.op = 0x41 then
      mergeTriple t { m := auxF32 img (st.c + 4 * h), l := F32.one, o := t.o.map fun _ => 0, nan := false }
    else t) x

/-! ## Half pages -/

/-- One attended slot as a unit sees it: its logit, and its value vector: per element the operand a lane multiplies and the scale
of its product. -/
structure Slot where
  logit : W32
  vals : List (Fl × Fl)
deriving DecidableEq, Repr

/-- Probability operands (R67): FP8-E4M3 scaled by 2^8 with the inverse scale, or BF16. -/
def probOperand (hiprec : Bool) (p : W32) : Option (Fl × Fl) :=
  match F32.read p with
  | .fin n v => if hiprec then some (toBf16 (.fin n v), Fl.one) else some (toE4m3 n (v.scale 8), .fin false (.pow2 (-8)))
  | _ => none

/-- The partial of a half page (R62, LATENT and DENSE): the largest logit, the exponents and their sum, and the weighted
sums; slots at −∞ are unattended (R70); a NaN logit or an operand that cannot be converted gives the NaN entry (R67, R71). -/
def halfPartial (hiprec : Bool) (dim : Nat) (slots : List Slot) : Triple :=
  if slots.any fun x => F32.isNan x.logit then nanTriple dim
  else
    let live := slots.filter fun x => x.logit != F32.negInf
    match live with
    | [] => emptyTriple dim
    | x :: xs =>
      let m := xs.foldl (fun a y => F32.max a y.logit) x.logit
      let ps := live.map fun y => F32.exp (F32.sub y.logit m)
      match ps.mapM (probOperand hiprec) with
      | none => nanTriple dim
      | some ops =>
        let o := (List.range dim).map fun c =>
          F32.sum ((ops.zip live).map fun q =>
            let e := q.2.vals.getD c (.fin false .zero, Fl.one)
            F32.write ((q.1.1.mul e.1).mul (e.2.mul q.1.2)))
        let l := F32.sum ps
        if F32.isNan l ∨ o.any F32.isNan then nanTriple dim else { m, l, o, nan := false }

/-- The value terms of stored blocks: every element under its block's scale. -/
def blockTerms (bs : List SBlock) : List (Fl × Fl) := bs.flatMap fun b => b.vals.map fun v => (v, b.scale)

/-- Where a page is read from (R141): its BF16 tail, or its stored form. -/
structure PageForm where
  g : Geo
  img : Bytes
  layer : Nat
  fmt : Nat
  evar : Nat
  params : Bytes
  tail : Bool
  rows : Map Row
  tails : Map Bytes
deriving DecidableEq, Repr

/-- The stored blocks of a slot's channels, in the form read. A slot that holds nothing reads as no block. -/
def PageForm.blocks (p : PageForm) (slot lo n : Nat) : List SBlock :=
  if p.tail then
    match Map.find? p.tails slot with
    | some r => tailBlocksOf r lo n
    | none => []
  else
    match Map.find? p.rows slot with
    | some r => storedBlocks p.fmt p.evar p.params r lo n
    | none => []

/-- The PQ8 scale and zero point of a channel. -/
def PageForm.pq8 (p : PageForm) (c : Nat) : Fl × Fl :=
  (decodeIeee spec16 (leAt p.params (2 * c) 2), decodeIeee spec16 (leAt p.params (2 * p.g.channels + 2 * c) 2))

/-- Whether channel parameters fold into the arithmetic (R95). -/
def PageForm.folds (p : PageForm) : Bool := !p.tail && p.fmt == 0xF

/-- A PQ8 element decoded to BF16 (R95, the cases that do not fold). -/
def PageForm.decoded (p : PageForm) (slot c : Nat) : Fl :=
  match Map.find? p.rows slot with
  | some r =>
    match storedVal p.g p.fmt p.evar p.params r c with
    | some v => toBf16 (F32.ofDy v false)
    | none => .nan
  | none => .fin false .zero

/-- A value element after the VALUE stages in the form a lane multiplies (R12: no lane multiplies an FP32 operand). An element
that VCLIP leaves alone stays as stored under its scale. One that it changes is rounded to nearest even to the form its lane
class takes (Table 3-7): to BF16 from a BF16 tail, else to the stored format under the scale of its block. DESIGN CHOICE, log
entry 128: the spec does not say how the clipped value re-enters the multiplier. -/
def PageForm.clipped (p : PageForm) (prog : List Stage) (e : Fl × Fl) : Fl × Fl :=
  let v := e.1.mul e.2
  let w := valueStages prog v
  if w = v then e
  else if p.tail || p.fmt == 0xF then (toBf16 w, Fl.one)
  else match w, e.2 with
    | .fin n x, .fin _ y => (.fin n ((elemOf p.fmt p.evar).roundTo .nearest (quotient 24 x y)), e.2)
    | _, _ => (w, Fl.one)

/-- A query operand for channels `lo` on, with the sum that folding adds to every raw score (R95): for PQ8 each element of the
converted operand, which is what a pod holds (R63, Table 3-5; log entry 122), is multiplied by its channel's scale and converted
again, and Σ q z is formed. -/
def PageForm.queryOperand (p : PageForm) (lo : Nat) (q : List Fl) : Option (Operand × W32) :=
  match convert p.g.hiprec q with
  | none => none
  | some op =>
    if p.folds then
      let par := (List.range q.length).map fun i => p.pq8 (lo + i)
      let qs := op.exact.zip par
      (convert p.g.hiprec (asFl (qs.map fun x => F32.write (x.1.mul x.2.1)))).map fun op2 =>
        (op2, F32.sum (qs.map fun x => F32.write (x.1.mul x.2.2)))
    else some (op, 0)

/-- Undoes the folding of a value sum at the end of a half page (R95): u = s × Σ p q + z × l. -/
def PageForm.unfold (p : PageForm) (lo : Nat) (x : Triple) : Triple :=
  if p.folds ∧ !x.nan ∧ x.m ≠ F32.negInf then
    let o := (List.range x.o.length).map fun i =>
      let sz := p.pq8 (lo + i)
      F32.add (F32.mulFl (x.o.getD i 0) sz.1) (F32.mulFl x.l sz.2)
    if o.any F32.isNan then nanTriple x.o.length else { x with o }
  else x

/-! ## The read paths -/

/-- What a query asks of a page beside the page: its path, token's QPOS and the query elements of a token and head. -/
structure Ask where
  head : Nat
  qpos : Nat
  q : List Fl
  program : List Stage
deriving DecidableEq, Repr

/-- A query element that is infinite or NaN makes its entry NaN (R71, R97). -/
def badQuery (q : List Fl) : Bool := (q.mapM finiteOf).isNone

/-- The absorbed query of a head (LATENT): WUK transposed times its content part, under R67 and R68, of Cc FP32 values; none
where the operand cannot be converted. The products of a column lie in the scale blocks of their own FP8 rows, each of which
scales before it joins; BF16 rows have no scale block, and the operand's scale multiplies their one sum. -/
def absorb (g : Geo) (img : Bytes) (layer head : Nat) (q : List Fl) : Option (List W32) :=
  (convert g.hiprec (q.take g.dk)).map fun op =>
    let rows := op.vals.zip ((List.range g.dk).map fun i => projRow img g (imgWuk img) g.dk layer head i)
    (List.range g.cc).map fun c =>
      let at_ (r : List Fl × List Fl) : Fl := r.1.getD c (.fin false .zero)
      if g.pfmt = 1 then F32.mulFl (F32.sumFl (rows.map fun x => x.1.mul (at_ x.2))) op.scale
      else F32.sum (rows.map fun x => F32.write ((x.1.mul (at_ x.2)).mul ((x.2.2.getD (c / 32) Fl.one).mul op.scale)))

/-- The position of slot `slot` of page-list entry `entry` (R42). -/
def slotPos (entry slot : Nat) : Nat := 256 * entry + slot

/-- The LATENT partial of one half page for a token and head: u over the Cc content channels. -/
def latentHalf (p : PageForm) (a : Ask) (entry : Nat) (attended : List Nat) : Triple :=
  match absorb p.g p.img p.layer a.head a.q with
  | none => if attended = [] then emptyTriple p.g.cc else nanTriple p.g.cc
  | some ab =>
    match p.queryOperand 0 (asFl ab ++ a.q.drop p.g.dk) with
    | none => if attended = [] then emptyTriple p.g.cc else nanTriple p.g.cc
    | some (op, z) =>
      p.unfold 0 (halfPartial p.g.hiprec p.g.cc (attended.map fun j =>
        { logit := scoreStages p.img a.program ⟨a.head, (a.qpos : Int) - slotPos entry j⟩
            (F32.add (score op (p.blocks j 0 (p.g.cc + p.g.cp))) z),
          vals := blockTerms (p.blocks j 0 p.g.cc) }))

/-- The DENSE partial of one half page for a token and head (KV head ⌊h / g⌋). With VALUE stages the values of a PQ8 page
are decoded first and do not fold (R95). -/
def denseHalf (p : PageForm) (a : Ask) (entry : Nat) (attended : List Nat) : Triple :=
  let k := a.head / max 1 p.g.group
  let vlo := p.g.kv * p.g.d + k * p.g.d
  let vs := hasValueStage a.program
  match p.queryOperand (k * p.g.d) a.q with
  | none => if attended = [] then emptyTriple p.g.d else nanTriple p.g.d
  | some (op, z) =>
    let part := halfPartial p.g.hiprec p.g.d (attended.map fun j =>
      { logit := scoreStages p.img a.program ⟨a.head, (a.qpos : Int) - slotPos entry j⟩
          (F32.add (score op (p.blocks j (k * p.g.d) p.g.d)) z),
        vals := if vs then
            (if p.folds then (List.range p.g.d).map fun c => (p.decoded j (vlo + c), Fl.one)
             else blockTerms (p.blocks j vlo p.g.d)).map (p.clipped a.program)
          else blockTerms (p.blocks j vlo p.g.d) })
    if vs then part else p.unfold vlo part

/-- A stored latent as the operand of reconstruction (R67, R95): its blocks, decoded to BF16 first on a PQ8 page. -/
def PageForm.latentBlocks (p : PageForm) (slot : Nat) : List SBlock :=
  if p.folds then [{ vals := (List.range p.g.cc).map fun c => p.decoded slot c, scale := Fl.one }]
  else p.blocks slot 0 p.g.cc

/-- One element of a reconstructed key or value: a row of the up-projection against the stored latent, block by block with
both scales (R68). -/
def reconstruct (bs : List SBlock) (row : List Fl × List Fl) : W32 :=
  let terms := bs.flatMap fun b => (runs b.vals).map fun v => (v, b.scale)
  F32.sum ((List.range terms.length).map fun k =>
    let t := terms.getD k ([], Fl.one)
    F32.mulFl (dot t.1 ((row.1.drop (32 * k)).take 32)) (t.2.mul (row.2.getD k Fl.one)))
where
  /-- A block's values in runs of 32. -/
  runs (vs : List Fl) : List (List Fl) := (List.range ((vs.length + 31) / 32)).map fun k => (vs.drop (32 * k)).take 32

/-- A reconstructed vector as the pod holds it (R63): FP8-E4M3 under one power-of-two scale; none where an element overflowed
or is NaN (R67). -/
def heldFp8 (xs : List Fl) : Option Operand := convert false xs

/-- The EXPANDED partial of one half page for a token and head. KEYNORM and VCLIP act on the reconstructed FP32 elements, before
they are rounded to the held FP8 form of R63 (DESIGN CHOICE, log entry 129: R69 and R63 do not say which comes first). -/
def expandedHalf (p : PageForm) (a : Ask) (entry : Nat) (attended : List Nat) : Triple :=
  match convert p.g.hiprec a.q with
  | none => if attended = [] then emptyTriple p.g.dv else nanTriple p.g.dv
  | some op =>
    let wk := (List.range p.g.dk).map fun i => projRow p.img p.g (imgWuk p.img) p.g.dk p.layer a.head i
    let wv := (List.range p.g.dv).map fun i => projRow p.img p.g (imgWuv p.img) p.g.dv p.layer a.head i
    let slots := attended.mapM fun j =>
      let lat := p.latentBlocks j
      let key := heldFp8 (asFl (keyStages a.program (wk.map (reconstruct lat))))
      let val := heldFp8 ((asFl (wv.map (reconstruct lat))).map (valueStages a.program))
      match key, val with
      | some k, some v =>
        let pos := if p.folds then
            [({ vals := (List.range p.g.cp).map fun c => p.decoded j (p.g.cc + c), scale := Fl.one } : SBlock)]
          else p.blocks j p.g.cc p.g.cp
        let raw := score op ({ vals := k.vals, scale := k.scale } :: pos)
        some ({ logit := scoreStages p.img a.program ⟨a.head, (a.qpos : Int) - slotPos entry j⟩ raw,
                vals := v.vals.map fun x => (x, v.scale) } : Slot)
      | _, _ => none
    match slots with
    | none => nanTriple p.g.dv
    | some ss => halfPartial p.g.hiprec p.g.dv ss

/-- The partial of the attended slots of one half page on a path (0 LATENT, 1 EXPANDED, 2 DENSE). A query element that is
not finite makes the entry NaN where a slot is attended (R71; log entry 22). -/
def halfOf (path : Nat) (p : PageForm) (a : Ask) (entry : Nat) (attended : List Nat) : Triple :=
  let dim := if path = 0 then p.g.cc else if path = 1 then p.g.dv else p.g.d
  if attended = [] then emptyTriple dim
  else if badQuery a.q then nanTriple dim
  else if path = 0 then latentHalf p a entry attended
  else if path = 1 then expandedHalf p a entry attended
  else denseHalf p a entry attended

/-- The partial of a page, its two halves combined exactly (R62). -/
def pagePartial (path : Nat) (p : PageForm) (a : Ask) (entry : Nat) (attended : List Nat) : Triple :=
  mergeTriple (halfOf path p a entry (attended.filter fun j => decide (j < 128)))
    (halfOf path p a entry (attended.filter fun j => decide (128 ≤ j)))

/-- The up-projection of a value sum (LATENT): converted, times WUV (R67, R68). -/
def upProject (g : Geo) (img : Bytes) (layer head : Nat) (x : Triple) : Triple :=
  if x.nan then nanTriple g.dv
  else if x.m = F32.negInf then emptyTriple g.dv
  else
    match convert g.hiprec (asFl x.o) with
    | none => nanTriple g.dv
    | some op =>
      let o := (List.range g.dv).map fun i =>
        let row := projRow img g (imgWuv img) g.dv layer head i
        let n := g.cc / 32
        F32.sum ((List.range n).map fun k =>
          F32.mulFl (dot ((op.vals.drop (32 * k)).take 32) ((row.1.drop (32 * k)).take 32)) ((row.2.getD k Fl.one).mul op.scale))
      if o.any F32.isNan then nanTriple g.dv else { x with o }

/-! ## Bounds -/

/-- A finite value rounded upward to FP32: a positive value below the least normal number becomes that number, a negative one
zero; nothing is rounded down to −∞. -/
def upward (p : Dy) : W32 :=
  let r := roundDy (if p.m < 0 then .down else .up) 24 (-149) p
  if r.log2 < -126 then (if p.m < 0 then 0 else F32.ofExact (.pow2 (-126)))
  else if r.m < 0 ∧ 128 ≤ r.log2 then 0xFF7FFFFF
  else F32.ofExact r

/-- A product rounded upward (R78), a zero factor giving zero (R139). -/
def mulUp (x y : Fl) : W32 :=
  match x, y with
  | .fin _ v, .fin _ w => if v.isZero ∨ w.isZero then 0 else upward (v.mul w)
  | .fin n v, .inf m => if v.isZero then 0 else if n = m then F32.posInf else F32.negInf
  | _, _ => F32.nan

/-- A sum of bound terms (R139): one that meets both infinities is +∞. -/
def boundSum (xs : List W32) : W32 := if xs.contains F32.posInf then F32.posInf else F32.sum xs

/-- The raw bound of a converted operand against a sketch (R78): lo bytes from `lo`, hi bytes from `hi`. -/
def rawBound (op : Operand) (sketch : Bytes) (lo hi : Nat) : W32 :=
  let qs := op.exact
  boundSum ((List.range qs.length).map fun c =>
    let q := qs.getD c (.fin false .zero)
    let a := mulUp q (sketchVal (byteAt sketch (lo + c)))
    let b := mulUp q (sketchVal (byteAt sketch (hi + c)))
    F32.max a b)

/-- The SCORE stages on a bound (R78): a position-dependent stage takes its largest value over the page's slots,
all 256 of them however many are counted. -/
def boundStages (img : Bytes) (prog : List Stage) (head qpos entry : Nat) (s : W32) : W32 :=
  prog.foldl (fun x st =>
    if st.op = 0x14 ∨ st.op = 0x17 then
      ((List.range 256).map fun j => scoreStage img ⟨head, (qpos : Int) - slotPos entry j⟩ x st).foldl F32.max
        (scoreStage img ⟨head, (qpos : Int) - slotPos entry 0⟩ x st)
    else scoreStage img ⟨head, 0⟩ x st) s

/-- The bound of a page for one token and head (R78); none where its entry is NaN (R71) and it takes no part. -/
def boundOf (path : Nat) (g : Geo) (img : Bytes) (layer : Nat) (a : Ask) (entry : Nat) (sketch : Bytes) : Option W32 :=
  let n := g.sketchChannels
  if badQuery a.q then none
  else if path = 0 then
    (absorb g img layer a.head a.q).bind fun ab =>
      (convert g.hiprec (asFl ab ++ a.q.drop g.dk)).map fun op =>
        boundStages img a.program a.head a.qpos entry (rawBound op sketch 0 n)
  else
    let k := a.head / max 1 g.group
    (convert g.hiprec a.q).map fun op =>
      boundStages img a.program a.head a.qpos entry (rawBound op sketch (k * g.d) (n + k * g.d))

/-- The largest of some bounds, −∞ for none (R78). -/
def maxBound (xs : List W32) : W32 := xs.foldl (fun a b => if F32.lt a b then b else a) F32.negInf

end Sys2Proof.Machine
end

