-- ==== Sys2Proof/Machine/Sha256.lean ====
section
/-! DEFINITION. SHA-256 (FIPS 180-4), HMAC-SHA-256 (RFC 2104) and the HKDF expansion (RFC 5869) that R303
names. The spec uses them by name (R112, R168, R303, R320, R325): the algorithms are those standards'
(PRESUMED: taken from the named standards, log entry 8).

A round makes two new words, one in each of two chains, from the last four of each; both chains are held newest first. -/
namespace Sys2Proof.Sha256

/-- The eight 32-bit words of a 256-bit number, most significant first. -/
def words8 (n : Nat) : List W32 := (List.range 8).map fun k => BitVec.ofNat 32 (n / 2 ^ (224 - 32 * k))

/-- The round constants, eight to a number. -/
def roundTable : List Nat :=
  [0x428a2f9871374491b5c0fbcfe9b5dba53956c25b59f111f1923f82a4ab1c5ed5,
   0xd807aa9812835b01243185be550c7dc372be5d7480deb1fe9bdc06a7c19bf174,
   0xe49b69c1efbe47860fc19dc6240ca1cc2de92c6f4a7484aa5cb0a9dc76f988da,
   0x983e5152a831c66db00327c8bf597fc7c6e00bf3d5a7914706ca635114292967,
   0x27b70a852e1b21384d2c6dfc53380d13650a7354766a0abb81c2c92e92722c85,
   0xa2bfe8a1a81a664bc24b8b70c76c51a3d192e819d6990624f40e3585106aa070,
   0x19a4c1161e376c082748774c34b0bcb5391c0cb34ed8aa4a5b9cca4f682e6ff3,
   0x748f82ee78a5636f84c878148cc7020890befffaa4506cebbef9a3f7c67178f2]

/-- The two chains before the first block. -/
def start : List W32 := words8 0x6a09e667bb67ae853c6ef372a54ff53a510e527f9b05688c1f83d9ab5be0cd19

/-- The exclusive or of a word's rotations to the right. -/
def turns (ns : List Nat) (x : W32) : W32 := ns.foldl (fun y n => y ^^^ x.rotateRight n) 0

/-- The message padded to whole blocks: a one bit, zeros, and its length in bits. -/
def pad (m : Bytes) : Bytes := m ++ [0x80] ++ zeros ((119 - m.length % 64) % 64) ++ toBE 8 (8 * m.length)

/-- A word of the schedule from the sixteen before it, newest first. -/
def nextWord (w : List W32) : W32 :=
  let near := w.getD 1 0
  let far := w.getD 14 0
  (turns [17, 19] near ^^^ (near >>> 10)) + w.getD 6 0 + (turns [7, 18] far ^^^ (far >>> 3)) + w.getD 15 0

/-- The schedule of a block, newest word first: its own sixteen words and 48 more. -/
def schedule (b : Bytes) : List W32 :=
  (List.range 48).foldl (fun w _ => nextWord w :: w)
    ((List.range 16).reverse.map fun i => BitVec.ofNat 32 (beAt b (4 * i) 4))

/-- The two chains, each at least its last four words, newest first. -/
structure Chains where
  lo : List W32
  hi : List W32

/-- What a round adds to both chains, from the one that chooses: the second newest word where the newest has a bit, else the third. -/
def Chains.mixed (c : Chains) (k w : W32) : W32 :=
  let x := c.hi.getD 0 0
  let other := c.hi.getD 2 0
  k + w + c.hi.getD 3 0 + turns [6, 11, 25] x + (other ^^^ (x &&& (other ^^^ c.hi.getD 1 0)))

/-- What a round adds from the other chain, with the majority of its last three words. -/
def Chains.voted (c : Chains) : W32 :=
  let x := c.lo.getD 0 0
  let y := c.lo.getD 1 0
  turns [2, 13, 22] x + ((x &&& y) ||| (c.lo.getD 2 0 &&& (x ||| y)))

/-- One round. -/
def Chains.round (c : Chains) (kw : W32 × W32) : Chains :=
  let m := c.mixed kw.1 kw.2
  { lo := (m + c.voted) :: c.lo.take 3, hi := (m + c.lo.getD 3 0) :: c.hi.take 3 }

/-- The compression of one 64-byte block into the eight words of the hash. -/
def absorb (h : List W32) (b : Bytes) : List W32 :=
  let ks := roundTable.flatMap words8
  let c := (ks.zip (schedule b).reverse).foldl Chains.round { lo := h.take 4, hi := h.drop 4 }
  List.zipWith (· + ·) h (c.lo ++ c.hi)

/-- The hash words after `n` blocks of a padded message. -/
def digestWords (m : Bytes) (n : Nat) : List W32 :=
  (List.range n).foldl (fun h k => absorb h ((m.drop (64 * k)).take 64)) start

/-- The 32-byte SHA-256 digest of a byte string. -/
def hash (m : Bytes) : Bytes := (digestWords (pad m) ((pad m).length / 64)).flatMap fun w => toBE 4 w.toNat

/-- HMAC-SHA-256. -/
def hmac (key msg : Bytes) : Bytes :=
  let k0 := if key.length > 64 then hash key else key
  let k := k0 ++ zeros (64 - k0.length)
  hash (k.map (· ^^^ 0x5c#8) ++ hash (k.map (· ^^^ 0x36#8) ++ msg))

/-- HKDF-Expand's blocks, `n` of them from counter `i`. -/
def expand (prk info : Bytes) : Nat → Nat → Bytes → Bytes
  | 0, _, _ => []
  | n + 1, i, prev =>
    let t := hmac prk (prev ++ info ++ [BitVec.ofNat 8 i])
    t ++ expand prk info n (i + 1) t

/-- HKDF-SHA-256 with an empty salt: `len` bytes (RFC 5869, R303). -/
def hkdf (ikm info : Bytes) (len : Nat) : Bytes :=
  (expand (hmac [] ikm) info (ceilDiv len 32) 1 []).take len

end Sys2Proof.Sha256
end

