-- ==== Sys2Proof/Machine/RegTable.lean ====
section
/-! DEFINITION. The register map: every register of Tables 18-2, 18-4, 18-6 to 18-8, 18-11, 18-12, 4-11, 7-10,
8-6, 9-8, 10-8, 10-9, 11-3, 12-9, 13-9 to 13-11, 14-7, 15-6, 16-11, 16-12 and 19-9 as one row, with its
fields' places, access types (Table 0-3) and reset values as those tables give them. A reset value that a
table gives in words (fused, from the configuration pages, a digest) stands here as 0 and is supplied where the register
is read (Machine/Views.lean) or at power-on (Machine/Boot.lean). -/
namespace Sys2Proof

/-- Register access types (Table 0-3). -/
inductive Acc where
  | ro | rw | rwl | w1c | w1s | wo
deriving DecidableEq, Repr

/-- A field: lowest bit, width, type and reset value. -/
structure Field where
  lo : Nat
  width : Nat
  ty : Acc
  rst : Nat
deriving DecidableEq, Repr

/-- A register, or `cnt` registers of one shape at consecutive offsets. -/
structure RegDef where
  off : Nat
  cnt : Nat
  name : String
  fields : List Field
deriving DecidableEq, Repr

/-- The blocks of the page map (Table 18-1). -/
inductive Block where
  | glb | int | log | acc | clk | rst | pwr | sec | hq | pft | eth | tc | mex | tier | flm | prof | res | cmp
  | pod | regn | die | hbm
deriving DecidableEq, Repr

namespace RegTable

/-- Table 4-11. -/
def profRegs : List RegDef :=
  [⟨0x010, 1, "PG_CAUSE", [⟨0, 1, .w1c, 0⟩, ⟨1, 1, .w1c, 0⟩, ⟨2, 1, .w1c, 0⟩, ⟨3, 1, .w1c, 0⟩]⟩,
   ⟨0x040, 1, "PROF_STORE", [⟨0, 4, .ro, 0⟩]⟩,
   ⟨0x044, 1, "PROF_COUNT", [⟨0, 7, .ro, 1⟩, ⟨8, 1, .ro, 0⟩, ⟨16, 8, .ro, 0⟩]⟩,
   ⟨0x048, 1, "PROF_FREE", [⟨0, 32, .ro, 0⟩]⟩,
   ⟨0x04C, 1, "PROF_LOWMARK", [⟨0, 16, .rw, 0x10⟩]⟩,
   ⟨0x050, 1, "PROF_MISSES", [⟨0, 32, .rw, 0⟩]⟩,
   ⟨0x054, 1, "PROF_LAST_LOAD", [⟨0, 8, .ro, 0⟩, ⟨8, 4, .ro, 0⟩, ⟨16, 16, .ro, 0⟩]⟩,
   ⟨0x058, 1, "PROF_CTRL", [⟨0, 1, .rwl, 0⟩]⟩,
   ⟨0x060, 1, "PROF_SEL", [⟨0, 6, .rw, 0⟩]⟩,
   ⟨0x064, 1, "PROF_SLOT_ID", [⟨0, 16, .ro, 0⟩, ⟨16, 16, .ro, 0⟩]⟩,
   ⟨0x068, 1, "PROF_SLOT_STAT", [⟨0, 2, .ro, 0⟩, ⟨2, 1, .ro, 0⟩]⟩,
   ⟨0x06C, 1, "PROF_SLOT_CONV", [⟨0, 32, .ro, 0⟩]⟩,
   ⟨0x070, 1, "PROF_SLOT_MIB", [⟨0, 16, .ro, 0⟩, ⟨16, 9, .ro, 0⟩]⟩,
   ⟨0x074, 1, "PROF_SLOT_INFLIGHT", [⟨0, 32, .ro, 0⟩]⟩,
   ⟨0x080, 8, "PROF_WDIG", [⟨0, 32, .ro, 0⟩]⟩,
   ⟨0x0A0, 8, "PROF_PDIG", [⟨0, 32, .ro, 0⟩]⟩,
   ⟨0x0C0, 8, "PROF_QDIG", [⟨0, 32, .ro, 0⟩]⟩]

/-- Table 7-10. -/
def mexRegs : List RegDef :=
  [⟨0x010, 1, "PG_CAUSE", [⟨0, 1, .w1c, 0⟩, ⟨1, 1, .w1c, 0⟩, ⟨2, 1, .w1c, 0⟩, ⟨3, 1, .w1c, 0⟩]⟩,
   ⟨0x040, 1, "MEX_DIR_COUNT", [⟨0, 23, .ro, 0⟩]⟩,
   ⟨0x044, 1, "MEX_FALSE_HITS", [⟨0, 32, .rw, 0⟩]⟩,
   ⟨0x048, 1, "MEX_CORRUPT", [⟨0, 32, .rw, 0⟩]⟩,
   ⟨0x04C, 1, "MEX_FULL", [⟨0, 32, .rw, 0⟩]⟩,
   ⟨0x050, 1, "MEX_SEARCH_LO", [⟨0, 32, .ro, 0⟩]⟩,
   ⟨0x054, 1, "MEX_SEARCH_HI", [⟨0, 32, .ro, 0⟩]⟩,
   ⟨0x058, 1, "MEX_RULES", [⟨0, 15, .ro, 0⟩, ⟨16, 5, .ro, 0⟩, ⟨24, 1, .ro, 0⟩]⟩,
   ⟨0x05C, 1, "MEX_SHIFT_POS", [⟨0, 14, .ro, 0⟩]⟩,
   ⟨0x060, 1, "MEX_DEFAULT_ACT", [⟨0, 32, .rwl, 0x1F⟩]⟩,
   ⟨0x064, 1, "MEX_GROUPS", [⟨0, 6, .ro, 0⟩, ⟨6, 1, .ro, 0⟩]⟩,
   ⟨0x068, 1, "MEX_FMT_SKIP", [⟨0, 32, .rw, 0⟩]⟩,
   ⟨0x06C, 1, "MEX_BANK_MAX", [⟨0, 11, .ro, 0⟩]⟩]

/-- Table 8-6. -/
def tierRegs : List RegDef :=
  [⟨0x010, 1, "PG_CAUSE", [⟨0, 1, .w1c, 0⟩, ⟨1, 1, .w1c, 0⟩, ⟨2, 1, .w1c, 0⟩, ⟨3, 1, .w1c, 0⟩, ⟨4, 1, .w1c, 0⟩]⟩,
   ⟨0x040, 1, "TIER_CTRL", [⟨0, 7, .rw, 5⟩, ⟨8, 7, .rw, 0xA⟩, ⟨16, 1, .rw, 1⟩]⟩,
   ⟨0x044, 1, "TIER_NAND", [⟨0, 2, .ro, 0⟩, ⟨2, 1, .ro, 0⟩]⟩,
   ⟨0x048, 1, "TIER_RECLAIM_GRACE", [⟨0, 10, .rw, 4⟩]⟩,
   ⟨0x04C, 1, "TIER_LENDABLE", [⟨0, 32, .ro, 0⟩]⟩,
   ⟨0x050, 1, "TIER_LENT_OUT", [⟨0, 32, .ro, 0⟩]⟩,
   ⟨0x054, 1, "TIER_BORROWED", [⟨0, 32, .ro, 0⟩]⟩,
   ⟨0x058, 1, "TIER_MIGRATING", [⟨0, 32, .ro, 0⟩]⟩,
   ⟨0x060, 1, "TIER_DEMOTE_LO", [⟨0, 32, .ro, 0⟩]⟩,
   ⟨0x064, 1, "TIER_DEMOTE_HI", [⟨0, 32, .ro, 0⟩]⟩,
   ⟨0x068, 1, "TIER_PROMOTE_LO", [⟨0, 32, .ro, 0⟩]⟩,
   ⟨0x06C, 1, "TIER_PROMOTE_HI", [⟨0, 32, .ro, 0⟩]⟩,
   ⟨0x070, 1, "TIER_STREAM_LO", [⟨0, 32, .ro, 0⟩]⟩,
   ⟨0x074, 1, "TIER_STREAM_HI", [⟨0, 32, .ro, 0⟩]⟩,
   ⟨0x078, 1, "TIER_LEND_LO", [⟨0, 32, .ro, 0⟩]⟩,
   ⟨0x07C, 1, "TIER_LEND_HI", [⟨0, 32, .ro, 0⟩]⟩,
   ⟨0x080, 1, "TIER_EVICT", [⟨0, 32, .rw, 0⟩]⟩,
   ⟨0x084, 1, "TIER_REFUSED", [⟨0, 32, .rw, 0⟩]⟩,
   ⟨0x088, 1, "TIER_PROMO_FALLBACK", [⟨0, 32, .rw, 0⟩]⟩,
   ⟨0x08C, 1, "TIER_LENT_LOST", [⟨0, 32, .rw, 0⟩]⟩,
   ⟨0x090, 1, "TIER_SKIP", [⟨0, 32, .rw, 0⟩]⟩]

/-- Table 9-8, part 1. -/
def flmRegsA : List RegDef :=
  [⟨0x010, 1, "PG_CAUSE", [⟨0, 1, .w1c, 0⟩, ⟨1, 1, .w1c, 0⟩, ⟨2, 1, .w1c, 0⟩, ⟨3, 1, .w1c, 0⟩, ⟨4, 1, .w1c, 0⟩, ⟨5, 1, .w1c, 0⟩, ⟨6, 1, .w1c, 0⟩, ⟨7, 1, .w1c, 0⟩]⟩,
   ⟨0x040, 1, "FLM_STATE", [⟨0, 2, .ro, 0⟩, ⟨2, 1, .ro, 0⟩, ⟨3, 1, .ro, 0⟩, ⟨4, 1, .ro, 0⟩]⟩,
   ⟨0x044, 1, "FLM_GEOM0", [⟨0, 4, .ro, 0⟩, ⟨4, 2, .ro, 0⟩, ⟨6, 2, .ro, 0⟩, ⟨8, 2, .ro, 0⟩, ⟨16, 16, .ro, 0⟩]⟩,
   ⟨0x048, 1, "FLM_GEOM1", [⟨0, 16, .ro, 0⟩]⟩,
   ⟨0x04C, 1, "FLM_CAP", [⟨0, 32, .ro, 0⟩]⟩,
   ⟨0x050, 1, "FLM_FREE", [⟨0, 32, .ro, 0⟩]⟩,
   ⟨0x054, 1, "FLM_FORMAT", [⟨0, 5, .rw, 7⟩]⟩,
   ⟨0x058, 1, "FLM_CMD", [⟨0, 3, .wo, 0⟩, ⟨8, 1, .ro, 0⟩, ⟨16, 8, .ro, 0⟩]⟩,
   ⟨0x05C, 1, "FLM_WL", [⟨0, 11, .rw, 0xC8⟩]⟩,
   ⟨0x060, 1, "FLM_ERASE", [⟨0, 16, .ro, 0⟩, ⟨16, 16, .ro, 0⟩]⟩,
   ⟨0x064, 1, "FLM_GC", [⟨0, 8, .rw, 0x10⟩, ⟨8, 8, .rw, 0x20⟩, ⟨16, 7, .rw, 0x19⟩]⟩,
   ⟨0x068, 1, "FLM_RESERVE", [⟨0, 16, .ro, 0⟩, ⟨16, 7, .ro, 0⟩]⟩,
   ⟨0x06C, 1, "FLM_REFRESH", [⟨0, 7, .rw, 0x30⟩]⟩,
   ⟨0x070, 1, "FLM_RD_LIMIT", [⟨0, 32, .rw, 0x186A0⟩]⟩,
   ⟨0x074, 1, "FLM_RETRY", [⟨0, 5, .rw, 0⟩]⟩,
   ⟨0x078, 1, "FLM_MAP_SRAM", [⟨0, 11, .ro, 0⟩]⟩,
   ⟨0x07C, 1, "FLM_MAP_HBM", [⟨0, 17, .ro, 0⟩]⟩,
   ⟨0x080, 1, "FLM_MAP_DIRTY", [⟨0, 13, .ro, 0⟩]⟩,
   ⟨0x088, 1, "FLM_RD_LO", [⟨0, 32, .ro, 0⟩]⟩,
   ⟨0x08C, 1, "FLM_RD_HI", [⟨0, 32, .ro, 0⟩]⟩,
   ⟨0x090, 1, "FLM_WR_LO", [⟨0, 32, .ro, 0⟩]⟩,
   ⟨0x094, 1, "FLM_WR_HI", [⟨0, 32, .ro, 0⟩]⟩,
   ⟨0x098, 1, "FLM_GCWR_LO", [⟨0, 32, .ro, 0⟩]⟩,
   ⟨0x09C, 1, "FLM_GCWR_HI", [⟨0, 32, .ro, 0⟩]⟩]

/-- Table 9-8, part 2. -/
def flmRegsB : List RegDef :=
  [⟨0x0A0, 1, "FLM_ERASES_LO", [⟨0, 32, .ro, 0⟩]⟩,
   ⟨0x0A4, 1, "FLM_ERASES_HI", [⟨0, 32, .ro, 0⟩]⟩,
   ⟨0x0A8, 1, "FLM_RETRIES", [⟨0, 32, .rw, 0⟩]⟩,
   ⟨0x0AC, 1, "FLM_SOFT", [⟨0, 32, .rw, 0⟩]⟩,
   ⟨0x0B0, 1, "FLM_UNCORR", [⟨0, 32, .rw, 0⟩]⟩,
   ⟨0x0B4, 1, "FLM_RETIRED", [⟨0, 32, .rw, 0⟩]⟩,
   ⟨0x0B8, 1, "FLM_MAP_MISS", [⟨0, 32, .rw, 0⟩]⟩]

/-- Table 9-8. -/
def flmRegs : List RegDef := flmRegsA ++ flmRegsB

/-- Table 10-8, part 1. -/
def pftRegsA : List RegDef :=
  [⟨0x010, 1, "PG_CAUSE", [⟨0, 1, .w1c, 0⟩, ⟨1, 1, .w1c, 0⟩, ⟨2, 1, .w1c, 0⟩, ⟨3, 1, .w1c, 0⟩, ⟨4, 1, .w1c, 0⟩, ⟨5, 1, .w1c, 0⟩]⟩,
   ⟨0x040, 1, "PFT_CTRL", [⟨0, 2, .rwl, 0⟩, ⟨2, 2, .rw, 3⟩, ⟨4, 5, .rw, 0x10⟩, ⟨16, 1, .rw, 1⟩]⟩,
   ⟨0x044, 1, "PFT_UDP", [⟨0, 16, .rwl, 0x4820⟩]⟩,
   ⟨0x048, 1, "PFT_RTO", [⟨0, 9, .rw, 0x20⟩, ⟨16, 4, .rw, 7⟩]⟩,
   ⟨0x04C, 1, "PFT_WINDOW", [⟨0, 12, .rw, 0x800⟩]⟩,
   ⟨0x050, 1, "PFT_ACK", [⟨0, 5, .rw, 0x10⟩, ⟨8, 8, .rw, 0x14⟩]⟩,
   ⟨0x054, 4, "PFT_ADDR", [⟨0, 32, .rwl, 0⟩]⟩,
   ⟨0x064, 1, "PFT_NODE", [⟨0, 12, .rwl, 0⟩, ⟨16, 16, .rwl, 0⟩]⟩,
   ⟨0x068, 1, "PFT_CONNS", [⟨0, 17, .ro, 0⟩]⟩,
   ⟨0x06C, 1, "PFT_FINHOLD", [⟨0, 14, .ro, 0⟩]⟩,
   ⟨0x070, 1, "PFT_NT_SEL", [⟨0, 12, .rw, 0⟩]⟩,
   ⟨0x074, 4, "PFT_NT_ADDR", [⟨0, 32, .rw, 0⟩]⟩,
   ⟨0x084, 1, "PFT_NT_CTRL", [⟨0, 1, .rw, 0⟩]⟩,
   ⟨0x088, 1, "PFT_CO_ARG", [⟨0, 12, .rw, 0⟩, ⟨12, 8, .rw, 0⟩]⟩,
   ⟨0x08C, 1, "PFT_CO_CONN", [⟨0, 16, .rw, 0⟩]⟩,
   ⟨0x090, 1, "PFT_CO_CMD", [⟨0, 2, .wo, 0⟩, ⟨8, 1, .ro, 0⟩, ⟨16, 8, .ro, 0⟩]⟩,
   ⟨0x094, 1, "PFT_CS_SEL", [⟨0, 16, .rw, 0⟩]⟩,
   ⟨0x098, 1, "PFT_CS_STATE", [⟨0, 3, .ro, 0⟩, ⟨3, 1, .ro, 0⟩, ⟨4, 12, .ro, 0⟩, ⟨16, 8, .ro, 0⟩]⟩,
   ⟨0x09C, 1, "PFT_CS_OUT", [⟨0, 12, .ro, 0⟩]⟩,
   ⟨0x0A0, 1, "PFT_TXPKT_LO", [⟨0, 32, .ro, 0⟩]⟩,
   ⟨0x0A4, 1, "PFT_TXPKT_HI", [⟨0, 32, .ro, 0⟩]⟩,
   ⟨0x0A8, 1, "PFT_RXPKT_LO", [⟨0, 32, .ro, 0⟩]⟩,
   ⟨0x0AC, 1, "PFT_RXPKT_HI", [⟨0, 32, .ro, 0⟩]⟩,
   ⟨0x0B0, 1, "PFT_TXB_LO", [⟨0, 32, .ro, 0⟩]⟩]

/-- Table 10-8, part 2. -/
def pftRegsB : List RegDef :=
  [⟨0x0B4, 1, "PFT_TXB_HI", [⟨0, 32, .ro, 0⟩]⟩,
   ⟨0x0B8, 1, "PFT_RXB_LO", [⟨0, 32, .ro, 0⟩]⟩,
   ⟨0x0BC, 1, "PFT_RXB_HI", [⟨0, 32, .ro, 0⟩]⟩,
   ⟨0x0C0, 1, "PFT_RETX", [⟨0, 32, .rw, 0⟩]⟩,
   ⟨0x0C4, 1, "PFT_DUP", [⟨0, 32, .rw, 0⟩]⟩,
   ⟨0x0C8, 1, "PFT_OOW", [⟨0, 32, .rw, 0⟩]⟩,
   ⟨0x0CC, 1, "PFT_DROP_HDR", [⟨0, 32, .rw, 0⟩]⟩,
   ⟨0x0D0, 1, "PFT_ACCESS", [⟨0, 32, .rw, 0⟩]⟩,
   ⟨0x0D4, 1, "PFT_RNR", [⟨0, 32, .rw, 0⟩]⟩,
   ⟨0x0D8, 1, "PFT_CONN_ERR", [⟨0, 32, .rw, 0⟩]⟩,
   ⟨0x0DC, 1, "PFT_FINHOLD_FULL", [⟨0, 32, .rw, 0⟩]⟩,
   ⟨0x0E0, 1, "PFT_EVENT_LOST", [⟨0, 32, .rw, 0⟩]⟩,
   ⟨0x0E4, 1, "PFT_SUB_SEL", [⟨0, 6, .rw, 0⟩]⟩,
   ⟨0x0E8, 1, "PFT_SUB", [⟨0, 12, .rw, 0⟩, ⟨15, 1, .rw, 0⟩, ⟨16, 9, .rw, 0⟩]⟩]

/-- Table 10-8. -/
def pftRegs : List RegDef := pftRegsA ++ pftRegsB

/-- Table 10-9. -/
def ethRegs : List RegDef :=
  [⟨0x010, 1, "PG_CAUSE", [⟨0, 1, .w1c, 0⟩, ⟨1, 1, .w1c, 0⟩, ⟨2, 1, .w1c, 0⟩]⟩,
   ⟨0x040, 1, "ETH_STAT", [⟨0, 1, .ro, 0⟩, ⟨1, 2, .ro, 0⟩, ⟨3, 1, .ro, 0⟩, ⟨4, 1, .ro, 0⟩, ⟨8, 16, .ro, 0⟩]⟩,
   ⟨0x044, 1, "ETH_CTRL", [⟨0, 1, .rw, 1⟩, ⟨1, 1, .rw, 1⟩, ⟨2, 1, .rw, 1⟩]⟩,
   ⟨0x048, 1, "ETH_MAC0", [⟨0, 32, .rwl, 0⟩]⟩,
   ⟨0x04C, 1, "ETH_MAC1", [⟨0, 16, .rwl, 0⟩]⟩,
   ⟨0x050, 1, "ETH_NH_MAC0", [⟨0, 32, .rw, 0⟩]⟩,
   ⟨0x054, 1, "ETH_NH_MAC1", [⟨0, 16, .rw, 0⟩]⟩,
   ⟨0x058, 1, "ETH_VLAN", [⟨0, 12, .rw, 0⟩, ⟨12, 1, .rw, 0⟩]⟩,
   ⟨0x05C, 1, "ETH_MAXFRAME", [⟨0, 14, .ro, 0x2400⟩]⟩,
   ⟨0x060, 1, "ETH_TXF_LO", [⟨0, 32, .ro, 0⟩]⟩,
   ⟨0x064, 1, "ETH_TXF_HI", [⟨0, 32, .ro, 0⟩]⟩,
   ⟨0x068, 1, "ETH_RXF_LO", [⟨0, 32, .ro, 0⟩]⟩,
   ⟨0x06C, 1, "ETH_RXF_HI", [⟨0, 32, .ro, 0⟩]⟩,
   ⟨0x070, 1, "ETH_TXO_LO", [⟨0, 32, .ro, 0⟩]⟩,
   ⟨0x074, 1, "ETH_TXO_HI", [⟨0, 32, .ro, 0⟩]⟩,
   ⟨0x078, 1, "ETH_RXO_LO", [⟨0, 32, .ro, 0⟩]⟩,
   ⟨0x07C, 1, "ETH_RXO_HI", [⟨0, 32, .ro, 0⟩]⟩,
   ⟨0x080, 1, "ETH_FCS_ERR", [⟨0, 32, .rw, 0⟩]⟩,
   ⟨0x084, 1, "ETH_FEC_CORR", [⟨0, 32, .rw, 0⟩]⟩,
   ⟨0x088, 1, "ETH_FEC_UNCORR", [⟨0, 32, .rw, 0⟩]⟩,
   ⟨0x08C, 1, "ETH_LINK_DOWNS", [⟨0, 32, .rw, 0⟩]⟩,
   ⟨0x090, 1, "ETH_OVERSIZE", [⟨0, 32, .rw, 0⟩]⟩,
   ⟨0x094, 1, "ETH_NOT_PFT", [⟨0, 32, .rw, 0⟩]⟩]

/-- Table 11-3, part 1. -/
def tcRegsA : List RegDef :=
  [⟨0x010, 1, "PG_CAUSE", [⟨0, 1, .w1c, 0⟩, ⟨1, 1, .w1c, 0⟩, ⟨2, 1, .w1c, 0⟩]⟩,
   ⟨0x040, 1, "TC_KIND_PRIO", [⟨0, 24, .rw, 0xFF1B10⟩]⟩,
   ⟨0x044, 1, "TC_PRIO_MAP", [⟨0, 24, .rw, 0xFAC688⟩]⟩,
   ⟨0x048, 1, "TC_DSCP0", [⟨0, 6, .rw, 0⟩, ⟨8, 6, .rw, 8⟩, ⟨16, 6, .rw, 0x10⟩, ⟨24, 6, .rw, 0x18⟩]⟩,
   ⟨0x04C, 1, "TC_DSCP1", [⟨0, 6, .rw, 0x20⟩, ⟨8, 6, .rw, 0x28⟩, ⟨16, 6, .rw, 0x30⟩, ⟨24, 6, .rw, 0x38⟩]⟩,
   ⟨0x050, 1, "TC_PORT_SEL", [⟨0, 3, .rw, 0⟩]⟩,
   ⟨0x054, 1, "TC_OVERHEAD", [⟨0, 7, .rw, 0x14⟩]⟩,
   ⟨0x058, 1, "TC_CLASS_SEL", [⟨0, 3, .rw, 0⟩]⟩,
   ⟨0x05C, 1, "TC_CSHAPE_RATE", [⟨0, 20, .rw, 0⟩]⟩,
   ⟨0x060, 1, "TC_CSHAPE_BURST", [⟨0, 16, .rw, 0x40⟩]⟩,
   ⟨0x064, 1, "TC_ENT_SEL", [⟨0, 9, .rw, 0⟩]⟩,
   ⟨0x068, 1, "TC_ENT_WEIGHT", [⟨0, 8, .rw, 1⟩]⟩,
   ⟨0x06C, 1, "TC_TSHAPE_RATE", [⟨0, 20, .rw, 0⟩]⟩,
   ⟨0x070, 1, "TC_TSHAPE_BURST", [⟨0, 16, .rw, 0x40⟩]⟩,
   ⟨0x074, 1, "TC_POL_RATE", [⟨0, 20, .rw, 0⟩]⟩,
   ⟨0x078, 1, "TC_POL_BURST", [⟨0, 16, .rw, 0x40⟩]⟩,
   ⟨0x080, 1, "TC_GATE_CTRL", [⟨0, 9, .rw, 0⟩, ⟨16, 1, .wo, 0⟩, ⟨17, 1, .ro, 0⟩, ⟨24, 8, .ro, 0⟩]⟩,
   ⟨0x084, 1, "TC_GATE_START_LO", [⟨0, 32, .rw, 0⟩]⟩,
   ⟨0x088, 1, "TC_GATE_START_HI", [⟨0, 32, .rw, 0⟩]⟩,
   ⟨0x08C, 1, "TC_GCL_SEL", [⟨0, 8, .rw, 0⟩]⟩,
   ⟨0x090, 1, "TC_GCL_INTERVAL", [⟨0, 27, .rw, 0⟩]⟩,
   ⟨0x094, 1, "TC_GCL_GATES", [⟨0, 8, .rw, 0⟩]⟩,
   ⟨0x098, 1, "TC_GATE_CYCLE", [⟨0, 27, .ro, 0⟩]⟩,
   ⟨0x09C, 1, "TC_GATE_NOW", [⟨0, 8, .ro, 0⟩, ⟨8, 8, .ro, 0xFF⟩, ⟨16, 16, .ro, 0⟩]⟩]

/-- Table 11-3, part 2. -/
def tcRegsB : List RegDef :=
  [⟨0x0A0, 1, "TC_POLICE_DROP", [⟨0, 32, .rw, 0⟩]⟩]

/-- Table 11-3. -/
def tcRegs : List RegDef := tcRegsA ++ tcRegsB

/-- Table 12-9, part 1. -/
def hqRegsA : List RegDef :=
  [⟨0x010, 1, "PG_CAUSE", [⟨0, 1, .w1c, 0⟩, ⟨1, 1, .w1c, 0⟩, ⟨2, 1, .w1c, 0⟩, ⟨3, 1, .w1c, 0⟩, ⟨4, 1, .w1c, 0⟩]⟩,
   ⟨0x040, 1, "HQ_OWNER", [⟨0, 1, .ro, 0⟩, ⟨1, 1, .ro, 0⟩, ⟨2, 1, .wo, 0⟩]⟩,
   ⟨0x044, 1, "HQ_HB", [⟨0, 32, .rw, 0⟩]⟩,
   ⟨0x048, 1, "HQ_HB_CFG", [⟨0, 10, .rwl, 0x64⟩, ⟨10, 4, .rwl, 3⟩, ⟨14, 1, .rwl, 0⟩]⟩,
   ⟨0x04C, 1, "HQ_LINK", [⟨0, 1, .ro, 0⟩, ⟨1, 3, .ro, 0⟩, ⟨4, 5, .ro, 0⟩]⟩,
   ⟨0x050, 1, "HQ_FUNC_SEL", [⟨0, 6, .rw, 0⟩]⟩,
   ⟨0x054, 1, "HQ_FUNC_MAP", [⟨0, 8, .rw, 0⟩, ⟨8, 1, .rw, 0⟩]⟩,
   ⟨0x058, 1, "HQ_FUNC_QBASE", [⟨0, 12, .rw, 0⟩, ⟨16, 13, .rw, 0⟩]⟩,
   ⟨0x060, 1, "HQ_Q_SEL", [⟨0, 12, .rw, 0⟩]⟩,
   ⟨0x064, 1, "HQ_SQ_BASE_LO", [⟨0, 32, .rw, 0⟩]⟩,
   ⟨0x068, 1, "HQ_SQ_BASE_HI", [⟨0, 32, .rw, 0⟩]⟩,
   ⟨0x06C, 1, "HQ_CQ_BASE_LO", [⟨0, 32, .rw, 0⟩]⟩,
   ⟨0x070, 1, "HQ_CQ_BASE_HI", [⟨0, 32, .rw, 0⟩]⟩,
   ⟨0x074, 1, "HQ_Q_CFG", [⟨0, 5, .rw, 4⟩, ⟨8, 5, .rw, 4⟩, ⟨16, 6, .rw, 0⟩, ⟨22, 1, .rw, 0⟩, ⟨23, 1, .rw, 0⟩]⟩,
   ⟨0x078, 1, "HQ_Q_STAT", [⟨0, 16, .ro, 0⟩, ⟨16, 16, .ro, 0⟩]⟩,
   ⟨0x07C, 1, "HQ_Q_COAL", [⟨0, 8, .rw, 1⟩, ⟨8, 16, .rw, 0⟩]⟩,
   ⟨0x080, 1, "HQ_EQ_BASE_LO", [⟨0, 32, .rw, 0⟩]⟩,
   ⟨0x084, 1, "HQ_EQ_BASE_HI", [⟨0, 32, .rw, 0⟩]⟩,
   ⟨0x088, 1, "HQ_EQ_SHADOW_LO", [⟨0, 32, .rw, 0⟩]⟩,
   ⟨0x08C, 1, "HQ_EQ_SHADOW_HI", [⟨0, 32, .rw, 0⟩]⟩,
   ⟨0x090, 1, "HQ_EQ_CFG", [⟨0, 4, .rw, 4⟩, ⟨8, 6, .rw, 0⟩, ⟨16, 1, .rw, 0⟩]⟩,
   ⟨0x094, 1, "HQ_EQ_STAT", [⟨0, 12, .ro, 0⟩]⟩,
   ⟨0x0A0, 1, "HQ_SRQ_SEL", [⟨0, 8, .rw, 0⟩]⟩,
   ⟨0x0A4, 1, "HQ_SRQ_BASE_LO", [⟨0, 32, .rw, 0⟩]⟩]

/-- Table 12-9, part 2. -/
def hqRegsB : List RegDef :=
  [⟨0x0A8, 1, "HQ_SRQ_BASE_HI", [⟨0, 32, .rw, 0⟩]⟩,
   ⟨0x0AC, 1, "HQ_SRQ_CFG", [⟨0, 5, .rw, 4⟩, ⟨16, 12, .rw, 0⟩, ⟨28, 1, .rw, 0⟩]⟩,
   ⟨0x0B0, 1, "HQ_SRQ_STAT", [⟨0, 16, .ro, 0⟩, ⟨16, 1, .ro, 1⟩]⟩,
   ⟨0x0C0, 1, "HQ_DB_ERR", [⟨0, 32, .rw, 0⟩]⟩,
   ⟨0x0C4, 1, "HQ_CQ_STALLS", [⟨0, 32, .rw, 0⟩]⟩,
   ⟨0x0C8, 1, "HQ_GLOBAL_DROP", [⟨0, 32, .rw, 0⟩]⟩,
   ⟨0x0D0, 1, "HQ_SUBMIT_LO", [⟨0, 32, .ro, 0⟩]⟩,
   ⟨0x0D4, 1, "HQ_SUBMIT_HI", [⟨0, 32, .ro, 0⟩]⟩]

/-- Table 12-9. -/
def hqRegs : List RegDef := hqRegsA ++ hqRegsB

/-- Table 13-9. -/
def secRegs : List RegDef :=
  [⟨0x010, 1, "PG_CAUSE", [⟨0, 1, .w1c, 0⟩, ⟨1, 1, .w1c, 0⟩, ⟨2, 1, .w1c, 0⟩, ⟨3, 1, .w1c, 0⟩, ⟨4, 1, .w1c, 0⟩]⟩,
   ⟨0x040, 1, "SEC_STAT", [⟨0, 1, .ro, 0⟩, ⟨1, 1, .ro, 0⟩, ⟨2, 1, .ro, 0⟩, ⟨8, 5, .ro, 0⟩]⟩,
   ⟨0x044, 1, "SEC_MBX_CTRL", [⟨0, 1, .w1s, 0⟩, ⟨1, 1, .wo, 0⟩, ⟨2, 1, .wo, 0⟩, ⟨3, 1, .ro, 0⟩, ⟨4, 1, .ro, 0⟩, ⟨16, 12, .rw, 0⟩]⟩,
   ⟨0x048, 1, "SEC_MBX_OWNER", [⟨0, 10, .ro, 0⟩, ⟨10, 1, .ro, 0⟩]⟩,
   ⟨0x04C, 1, "SEC_MBX_RLEN", [⟨0, 12, .ro, 0⟩]⟩,
   ⟨0x050, 1, "SEC_KEY_SEL", [⟨0, 8, .rw, 0⟩]⟩,
   ⟨0x054, 1, "SEC_KEY_STAT", [⟨0, 2, .ro, 0⟩, ⟨16, 16, .ro, 0⟩]⟩,
   ⟨0x058, 1, "SEC_MEAS_GEN", [⟨0, 32, .ro, 0⟩]⟩,
   ⟨0x05C, 1, "SEC_TAG_FAIL", [⟨0, 32, .rw, 0⟩]⟩,
   ⟨0x060, 1, "SEC_SPDM_ERR", [⟨0, 32, .rw, 0⟩]⟩,
   ⟨0x800, 512, "SEC_MBX_DATA", [⟨0, 32, .rw, 0⟩]⟩]

/-- Table 13-10. -/
def accRegs : List RegDef :=
  [⟨0x010, 1, "PG_CAUSE", [⟨0, 1, .w1c, 0⟩, ⟨1, 1, .w1c, 0⟩]⟩,
   ⟨0x040, 1, "ACC_TGT_SEL", [⟨0, 11, .rw, 0⟩]⟩,
   ⟨0x044, 1, "ACC_MST_SEL", [⟨0, 10, .rw, 0⟩, ⟨16, 10, .rw, 0⟩]⟩,
   ⟨0x048, 1, "ACC_RIGHT", [⟨0, 2, .rw, 0⟩]⟩,
   ⟨0x04C, 1, "ACC_STAT", [⟨0, 1, .ro, 1⟩]⟩,
   ⟨0x050, 8, "ACC_DIGEST", [⟨0, 32, .ro, 0⟩]⟩,
   ⟨0x070, 1, "ACC_DENY", [⟨0, 32, .rw, 0⟩]⟩,
   ⟨0x074, 1, "ACC_LAST_DENY", [⟨0, 10, .ro, 0⟩, ⟨16, 11, .ro, 0⟩]⟩]

/-- Table 13-11. -/
def logRegs : List RegDef :=
  [⟨0x010, 1, "PG_CAUSE", [⟨0, 1, .w1c, 0⟩, ⟨1, 1, .w1c, 0⟩, ⟨2, 1, .w1c, 0⟩, ⟨3, 1, .w1c, 0⟩]⟩,
   ⟨0x040, 1, "LOG_NEWEST_LO", [⟨0, 32, .ro, 0⟩]⟩,
   ⟨0x044, 1, "LOG_NEWEST_HI", [⟨0, 32, .ro, 0⟩]⟩,
   ⟨0x048, 1, "LOG_OLDEST_LO", [⟨0, 32, .ro, 0⟩]⟩,
   ⟨0x04C, 1, "LOG_OLDEST_HI", [⟨0, 32, .ro, 0⟩]⟩,
   ⟨0x050, 1, "LOG_SEL_LO", [⟨0, 32, .rw, 0⟩]⟩,
   ⟨0x054, 1, "LOG_SEL_HI", [⟨0, 32, .rw, 0⟩]⟩,
   ⟨0x058, 1, "LOG_STAT", [⟨0, 1, .ro, 0⟩]⟩,
   ⟨0x05C, 1, "LOG_BOOT", [⟨0, 32, .ro, 0⟩]⟩,
   ⟨0x060, 1, "LOG_CKPT_LO", [⟨0, 32, .ro, 0⟩]⟩,
   ⟨0x064, 1, "LOG_CKPT_HI", [⟨0, 32, .ro, 0⟩]⟩,
   ⟨0x068, 1, "LOG_MARK_LO", [⟨0, 32, .rw, 0⟩]⟩,
   ⟨0x06C, 1, "LOG_MARK_HI", [⟨0, 32, .rw, 0⟩]⟩,
   ⟨0x070, 1, "LOG_CKPT_FAIL", [⟨0, 32, .rw, 0⟩]⟩,
   ⟨0x080, 16, "LOG_REC", [⟨0, 32, .ro, 0⟩]⟩,
   ⟨0x0C0, 8, "LOG_HEAD", [⟨0, 32, .ro, 0⟩]⟩]

/-- Table 14-7, part 1. -/
def resRegsA : List RegDef :=
  [⟨0x010, 1, "PG_CAUSE", [⟨0, 1, .w1c, 0⟩, ⟨1, 1, .w1c, 0⟩, ⟨2, 1, .w1c, 0⟩, ⟨3, 1, .w1c, 0⟩, ⟨4, 1, .w1c, 0⟩, ⟨5, 1, .w1c, 0⟩, ⟨6, 1, .w1c, 0⟩, ⟨7, 1, .w1c, 0⟩, ⟨8, 1, .w1c, 0⟩]⟩,
   ⟨0x040, 1, "RES_SPARES", [⟨0, 10, .ro, 0x380⟩, ⟨10, 6, .ro, 0x20⟩, ⟨16, 5, .ro, 0x10⟩, ⟨21, 1, .ro, 1⟩, ⟨22, 1, .ro, 1⟩]⟩,
   ⟨0x044, 1, "RES_ACTIVE", [⟨0, 9, .ro, 0x1A0⟩, ⟨16, 16, .ro, 0xFFFF⟩]⟩,
   ⟨0x048, 1, "RES_LANES", [⟨0, 15, .ro, 0x6800⟩]⟩,
   ⟨0x04C, 1, "RES_SCRUB", [⟨0, 5, .rw, 0x18⟩, ⟨8, 3, .rw, 4⟩]⟩,
   ⟨0x050, 1, "RES_MIRROR", [⟨0, 1, .rw, 0⟩, ⟨8, 7, .rw, 5⟩]⟩,
   ⟨0x054, 1, "RES_SUSPECT", [⟨0, 7, .rw, 0x1E⟩, ⟨8, 13, .rw, 0x400⟩]⟩,
   ⟨0x058, 1, "RES_BEACON", [⟨0, 10, .rw, 0xA⟩, ⟨10, 4, .rw, 3⟩]⟩,
   ⟨0x05C, 1, "RES_MARGIN_SEL", [⟨0, 3, .rw, 0⟩, ⟨8, 8, .rw, 0⟩]⟩,
   ⟨0x060, 1, "RES_MARGIN_THR", [⟨0, 16, .rw, 0⟩]⟩,
   ⟨0x064, 1, "RES_MARGIN_VAL", [⟨0, 16, .ro, 0⟩, ⟨16, 16, .ro, 0xFFFF⟩]⟩,
   ⟨0x068, 1, "RES_SUSPECT_STAT", [⟨0, 4, .ro, 0⟩, ⟨4, 1, .ro, 0⟩]⟩,
   ⟨0x06C, 4, "RES_SUSPECT_NODE", [⟨0, 12, .ro, 0⟩, ⟨16, 12, .ro, 0⟩]⟩,
   ⟨0x07C, 1, "RES_UNMIRRORED", [⟨0, 32, .ro, 0⟩]⟩,
   ⟨0x080, 1, "RES_LANE_ERR", [⟨0, 32, .rw, 0⟩]⟩,
   ⟨0x084, 1, "RES_SEQ_ERR", [⟨0, 32, .rw, 0⟩]⟩,
   ⟨0x088, 1, "RES_MEM_CORR", [⟨0, 32, .rw, 0⟩]⟩,
   ⟨0x08C, 1, "RES_MEM_UNCORR", [⟨0, 32, .rw, 0⟩]⟩,
   ⟨0x090, 1, "RES_LINK_RETRY", [⟨0, 32, .rw, 0⟩]⟩,
   ⟨0x094, 1, "RES_WATCHDOG", [⟨0, 32, .rw, 0⟩]⟩,
   ⟨0x098, 1, "RES_PREFAIL", [⟨0, 32, .rw, 0⟩]⟩,
   ⟨0x09C, 1, "RES_DAMAGED", [⟨0, 32, .rw, 0⟩]⟩,
   ⟨0x0A0, 1, "RES_ROW_REMAP", [⟨0, 32, .rw, 0⟩]⟩,
   ⟨0x0A8, 1, "RES_MIRROR_B_LO", [⟨0, 32, .ro, 0⟩]⟩]

/-- Table 14-7, part 2. -/
def resRegsB : List RegDef :=
  [⟨0x0AC, 1, "RES_MIRROR_B_HI", [⟨0, 32, .ro, 0⟩]⟩,
   ⟨0x0B0, 1, "RES_SCRUB_B_LO", [⟨0, 32, .ro, 0⟩]⟩,
   ⟨0x0B4, 1, "RES_SCRUB_B_HI", [⟨0, 32, .ro, 0⟩]⟩]

/-- Table 14-7. -/
def resRegs : List RegDef := resRegsA ++ resRegsB

/-- Table 15-6. -/
def cmpRegs : List RegDef :=
  [⟨0x010, 1, "PG_CAUSE", [⟨0, 1, .w1c, 0⟩, ⟨1, 1, .w1c, 0⟩, ⟨2, 1, .w1c, 0⟩, ⟨3, 1, .w1c, 0⟩, ⟨4, 1, .w1c, 0⟩]⟩,
   ⟨0x040, 1, "CMP_ROLE", [⟨0, 2, .ro, 0⟩, ⟨2, 1, .ro, 0⟩, ⟨4, 2, .ro, 0⟩]⟩,
   ⟨0x044, 1, "CMP_CTRL", [⟨0, 1, .rwl, 0⟩]⟩,
   ⟨0x048, 1, "CMP_GRACE", [⟨0, 10, .rw, 0x32⟩]⟩,
   ⟨0x04C, 1, "CMP_STUBS", [⟨0, 17, .ro, 0⟩]⟩,
   ⟨0x050, 1, "CMP_SEL", [⟨0, 5, .rw, 0⟩]⟩,
   ⟨0x054, 1, "CMP_ID", [⟨0, 32, .rw, 0⟩]⟩,
   ⟨0x058, 1, "CMP_EPOCH", [⟨0, 32, .rw, 0⟩]⟩,
   ⟨0x05C, 1, "CMP_MCTRL", [⟨0, 1, .rw, 0⟩]⟩,
   ⟨0x060, 1, "CMP_MSAT", [⟨0, 1, .ro, 0⟩, ⟨1, 1, .ro, 0⟩, ⟨2, 1, .ro, 0⟩, ⟨3, 1, .ro, 0⟩, ⟨4, 1, .ro, 0⟩]⟩,
   ⟨0x064, 1, "CMP_TIME_LO", [⟨0, 32, .ro, 0⟩]⟩,
   ⟨0x068, 1, "CMP_TIME_HI", [⟨0, 32, .ro, 0⟩]⟩,
   ⟨0x06C, 1, "CMP_HBM_LO", [⟨0, 32, .ro, 0⟩]⟩,
   ⟨0x070, 1, "CMP_HBM_HI", [⟨0, 32, .ro, 0⟩]⟩,
   ⟨0x074, 1, "CMP_NAND_LO", [⟨0, 32, .ro, 0⟩]⟩,
   ⟨0x078, 1, "CMP_NAND_HI", [⟨0, 32, .ro, 0⟩]⟩,
   ⟨0x07C, 1, "CMP_MAC_LO", [⟨0, 32, .ro, 0⟩]⟩,
   ⟨0x080, 1, "CMP_MAC_HI", [⟨0, 32, .ro, 0⟩]⟩,
   ⟨0x084, 1, "CMP_FAB_LO", [⟨0, 32, .ro, 0⟩]⟩,
   ⟨0x088, 1, "CMP_REDIRECTS", [⟨0, 32, .rw, 0⟩]⟩,
   ⟨0x08C, 1, "CMP_FORWARDS", [⟨0, 32, .rw, 0⟩]⟩,
   ⟨0x090, 1, "CMP_STALE", [⟨0, 32, .rw, 0⟩]⟩,
   ⟨0x094, 1, "CMP_AHEAD", [⟨0, 32, .rw, 0⟩]⟩,
   ⟨0x098, 1, "CMP_FAB_HI", [⟨0, 32, .ro, 0⟩]⟩]

/-- Table 16-11. -/
def clkRegs : List RegDef :=
  [⟨0x010, 1, "PG_CAUSE", [⟨0, 1, .w1c, 0⟩, ⟨1, 1, .w1c, 0⟩, ⟨2, 1, .w1c, 0⟩]⟩,
   ⟨0x040, 1, "CLK_CORE", [⟨0, 5, .ro, 0xC⟩, ⟨8, 5, .ro, 0xC⟩, ⟨16, 1, .wo, 0⟩]⟩,
   ⟨0x044, 1, "CLK_LOCK", [⟨0, 9, .ro, 0⟩]⟩,
   ⟨0x048, 1, "CLK_REF", [⟨0, 1, .ro, 1⟩, ⟨1, 1, .ro, 0⟩]⟩,
   ⟨0x04C, 1, "CLK_SMEM", [⟨0, 1, .ro, 0⟩, ⟨8, 8, .ro, 0x19⟩]⟩,
   ⟨0x050, 1, "CLK_LOCK_LOSS", [⟨0, 32, .rw, 0⟩]⟩,
   ⟨0x054, 1, "CLK_STEPS", [⟨0, 32, .rw, 0⟩]⟩]

/-- Table 16-12. -/
def rstRegs : List RegDef :=
  [⟨0x010, 1, "PG_CAUSE", [⟨0, 1, .w1c, 0⟩, ⟨1, 1, .w1c, 0⟩, ⟨2, 1, .w1c, 0⟩, ⟨3, 1, .w1c, 0⟩]⟩,
   ⟨0x040, 1, "RST_BOOT", [⟨0, 1, .ro, 0⟩, ⟨1, 1, .ro, 0⟩, ⟨2, 1, .ro, 0⟩, ⟨3, 1, .ro, 0⟩, ⟨8, 16, .ro, 0⟩]⟩,
   ⟨0x044, 1, "RST_IMAGE_SEQ", [⟨0, 32, .ro, 0⟩]⟩,
   ⟨0x048, 1, "RST_QUIESCE_IN", [⟨0, 24, .rw, 0⟩]⟩,
   ⟨0x04C, 1, "RST_QUIESCE_OUT", [⟨0, 24, .rw, 0⟩]⟩,
   ⟨0x050, 1, "RST_DRAINED", [⟨0, 24, .ro, 0⟩]⟩,
   ⟨0x054, 1, "RST_PULSE", [⟨0, 24, .wo, 0⟩]⟩,
   ⟨0x058, 1, "RST_READY", [⟨0, 24, .ro, 0xFFFFFF⟩]⟩,
   ⟨0x05C, 1, "RST_UNSAFE", [⟨0, 32, .rw, 0⟩]⟩,
   ⟨0x060, 1, "RST_SM_ADDR", [⟨0, 26, .rw, 0⟩]⟩,
   ⟨0x064, 1, "RST_SM_CMD", [⟨0, 2, .wo, 0⟩, ⟨8, 1, .ro, 0⟩, ⟨16, 8, .ro, 0⟩]⟩,
   ⟨0x100, 64, "RST_SM_BUF", [⟨0, 32, .rw, 0⟩]⟩]

/-- Table 18-2. -/
def headerRegs : List RegDef :=
  [⟨0x000, 1, "PG_ID", [⟨0, 16, .ro, 0⟩, ⟨16, 16, .ro, 0⟩]⟩,
   ⟨0x004, 1, "PG_VER", [⟨0, 4, .ro, 0⟩, ⟨8, 8, .ro, 1⟩]⟩,
   ⟨0x008, 1, "PG_CAP", [⟨0, 1, .ro, 0⟩, ⟨1, 1, .ro, 0⟩, ⟨2, 1, .ro, 0⟩, ⟨16, 16, .ro, 0⟩]⟩,
   ⟨0x00C, 1, "PG_STAT", [⟨0, 1, .ro, 0⟩, ⟨1, 2, .ro, 0⟩, ⟨3, 2, .ro, 0⟩, ⟨5, 1, .ro, 0⟩, ⟨6, 1, .ro, 0⟩, ⟨16, 16, .ro, 0⟩]⟩,
   ⟨0x010, 1, "PG_CAUSE", [⟨0, 32, .w1c, 0⟩]⟩,
   ⟨0x014, 1, "PG_MASK", [⟨0, 32, .rw, 0⟩]⟩,
   ⟨0x018, 1, "PG_FORCE", [⟨0, 8, .wo, 0⟩, ⟨8, 8, .wo, 0⟩]⟩,
   ⟨0x01C, 1, "PG_LOCK", [⟨0, 1, .rwl, 0⟩]⟩,
   ⟨0x020, 1, "PG_CHG", [⟨0, 32, .ro, 0⟩]⟩,
   ⟨0x024, 1, "PG_OWNER", [⟨0, 10, .ro, 0x80⟩]⟩]

/-- Table 18-4. -/
def glbRegs : List RegDef :=
  [⟨0x010, 1, "PG_CAUSE", [⟨0, 1, .w1c, 0⟩, ⟨1, 1, .w1c, 0⟩, ⟨2, 1, .w1c, 0⟩, ⟨3, 1, .w1c, 0⟩]⟩,
   ⟨0x040, 1, "GLB_SERIAL_LO", [⟨0, 32, .ro, 0⟩]⟩,
   ⟨0x044, 1, "GLB_SERIAL_HI", [⟨0, 32, .ro, 0⟩]⟩,
   ⟨0x048, 1, "GLB_FUSE", [⟨0, 1, .ro, 0⟩]⟩,
   ⟨0x04C, 1, "GLB_CTRL", [⟨0, 1, .rwl, 0⟩]⟩,
   ⟨0x050, 1, "GLB_TIME_LO", [⟨0, 32, .ro, 0⟩]⟩,
   ⟨0x054, 1, "GLB_TIME_HI", [⟨0, 32, .ro, 0⟩]⟩,
   ⟨0x058, 1, "GLB_REQ", [⟨0, 15, .ro, 0⟩, ⟨16, 14, .ro, 0⟩]⟩,
   ⟨0x05C, 1, "GLB_PARTS", [⟨0, 9, .ro, 1⟩, ⟨16, 10, .ro, 0⟩]⟩,
   ⟨0x060, 1, "GLB_PART_SEL", [⟨0, 8, .rw, 0⟩]⟩,
   ⟨0x064, 1, "GLB_PART_STATE", [⟨0, 2, .ro, 0⟩, ⟨16, 12, .ro, 0⟩]⟩,
   ⟨0x068, 1, "GLB_PART_MODE", [⟨0, 1, .rw, 0⟩, ⟨1, 1, .rw, 0⟩, ⟨2, 2, .rw, 0⟩, ⟨4, 4, .rw, 3⟩, ⟨8, 1, .rw, 0⟩]⟩,
   ⟨0x06C, 1, "GLB_PART_SHARE", [⟨0, 10, .ro, 0⟩]⟩,
   ⟨0x070, 1, "GLB_PART_RSV", [⟨0, 15, .ro, 0⟩]⟩,
   ⟨0x074, 1, "GLB_PART_USED", [⟨0, 32, .ro, 0⟩]⟩,
   ⟨0x078, 1, "GLB_PART_CONV", [⟨0, 32, .ro, 0⟩]⟩,
   ⟨0x07C, 1, "GLB_PART_PARTNER", [⟨0, 12, .ro, 0⟩, ⟨15, 1, .ro, 0⟩]⟩,
   ⟨0x080, 1, "GLB_PART_ARG", [⟨0, 12, .rw, 0⟩, ⟨16, 10, .rw, 0⟩]⟩,
   ⟨0x084, 1, "GLB_PART_ARG2", [⟨0, 15, .rw, 0⟩]⟩,
   ⟨0x088, 1, "GLB_PART_CMD", [⟨0, 3, .wo, 0⟩, ⟨8, 1, .ro, 0⟩, ⟨16, 8, .ro, 0⟩, ⟨24, 8, .ro, 0⟩]⟩,
   ⟨0x090, 1, "GLB_WIDTH_ERR", [⟨0, 32, .rw, 0⟩]⟩,
   ⟨0x094, 1, "GLB_WRITE_DROP", [⟨0, 32, .rw, 0⟩]⟩,
   ⟨0x098, 1, "GLB_FORCED", [⟨0, 32, .rw, 0⟩]⟩]

/-- Table 18-6. -/
def intRegs : List RegDef :=
  [⟨0x040, 1, "INT_CTRL", [⟨0, 6, .rw, 0⟩, ⟨6, 1, .rw, 0⟩, ⟨16, 8, .rw, 0⟩]⟩,
   ⟨0x044, 1, "INT_ARM", [⟨0, 1, .w1s, 1⟩]⟩,
   ⟨0x048, 1, "INT_FIRST", [⟨0, 10, .ro, 0⟩, ⟨15, 1, .ro, 1⟩]⟩,
   ⟨0x04C, 1, "INT_COUNT", [⟨0, 10, .ro, 0⟩]⟩,
   ⟨0x050, 1, "INT_MSGS", [⟨0, 32, .rw, 0⟩]⟩,
   ⟨0x080, 26, "INT_SUM", [⟨0, 32, .ro, 0⟩]⟩]

/-- Table 18-7. -/
def podRegs : List RegDef :=
  [⟨0x010, 1, "PG_CAUSE", [⟨0, 1, .w1c, 0⟩, ⟨1, 1, .w1c, 0⟩, ⟨2, 1, .w1c, 0⟩]⟩,
   ⟨0x040, 1, "POD_LANES", [⟨0, 7, .ro, 0x40⟩, ⟨8, 7, .ro, 2⟩, ⟨16, 7, .ro, 0⟩]⟩,
   ⟨0x044, 1, "POD_LANE_SEL", [⟨0, 7, .rw, 0⟩]⟩,
   ⟨0x048, 1, "POD_LANE_STAT", [⟨0, 2, .ro, 0⟩, ⟨8, 1, .ro, 0⟩]⟩,
   ⟨0x04C, 1, "POD_RSV", [⟨0, 8, .ro, 0⟩, ⟨8, 1, .ro, 0⟩]⟩,
   ⟨0x050, 1, "POD_PCACHE", [⟨0, 4, .ro, 0⟩, ⟨4, 4, .ro, 0⟩]⟩,
   ⟨0x054, 4, "POD_PCACHE", [⟨0, 16, .ro, 0⟩, ⟨16, 16, .ro, 0⟩]⟩,
   ⟨0x064, 1, "POD_QUEUED", [⟨0, 16, .ro, 0⟩]⟩,
   ⟨0x068, 1, "POD_RESIDUE_ERR", [⟨0, 32, .rw, 0⟩]⟩,
   ⟨0x06C, 1, "POD_SEQ_ERR", [⟨0, 32, .rw, 0⟩]⟩,
   ⟨0x070, 1, "POD_UNITS_LO", [⟨0, 32, .ro, 0⟩]⟩,
   ⟨0x074, 1, "POD_UNITS_HI", [⟨0, 32, .ro, 0⟩]⟩]

/-- Table 18-8, part 1. -/
def regnRegsA : List RegDef :=
  [⟨0x010, 1, "PG_CAUSE", [⟨0, 1, .w1c, 0⟩, ⟨1, 1, .w1c, 0⟩, ⟨2, 1, .w1c, 0⟩, ⟨3, 1, .w1c, 0⟩]⟩,
   ⟨0x040, 1, "REGN_ARB", [⟨0, 9, .rw, 0x40⟩, ⟨16, 7, .rw, 5⟩]⟩,
   ⟨0x044, 1, "REGN_WT_SEL", [⟨0, 8, .rw, 0⟩]⟩,
   ⟨0x048, 1, "REGN_WT", [⟨0, 8, .rw, 1⟩]⟩,
   ⟨0x04C, 1, "REGN_GATHER", [⟨0, 8, .rw, 0⟩, ⟨16, 10, .ro, 0x200⟩]⟩,
   ⟨0x050, 1, "REGN_RSV_SEL", [⟨0, 8, .rw, 0⟩]⟩,
   ⟨0x054, 1, "REGN_RSV_PODS", [⟨0, 28, .ro, 0⟩]⟩,
   ⟨0x058, 1, "REGN_RSV_SLOTS", [⟨0, 9, .ro, 0⟩, ⟨16, 9, .ro, 0⟩]⟩,
   ⟨0x05C, 1, "REGN_RSV_GATHER", [⟨0, 10, .ro, 0⟩]⟩,
   ⟨0x060, 1, "REGN_RSV_ARG0", [⟨0, 28, .rw, 0⟩]⟩,
   ⟨0x064, 1, "REGN_RSV_ARG1", [⟨0, 9, .rw, 0⟩, ⟨16, 9, .rw, 0⟩]⟩,
   ⟨0x068, 1, "REGN_RSV_ARG2", [⟨0, 10, .rw, 0⟩]⟩,
   ⟨0x06C, 1, "REGN_RSV_CMD", [⟨0, 2, .wo, 0⟩, ⟨8, 1, .ro, 0⟩, ⟨16, 8, .ro, 0⟩]⟩,
   ⟨0x070, 1, "REGN_POOL", [⟨0, 16, .ro, 0x2AF7⟩]⟩,
   ⟨0x074, 1, "REGN_SKETCH", [⟨0, 21, .ro, 0⟩]⟩,
   ⟨0x078, 1, "REGN_SKETCH_MISS", [⟨0, 32, .rw, 0⟩]⟩,
   ⟨0x07C, 1, "REGN_AES", [⟨0, 1, .ro, 0⟩, ⟨1, 1, .ro, 1⟩]⟩,
   ⟨0x088, 1, "REGN_IDLE_LO", [⟨0, 32, .ro, 0⟩]⟩,
   ⟨0x08C, 1, "REGN_IDLE_HI", [⟨0, 32, .ro, 0⟩]⟩,
   ⟨0x090, 1, "REGN_RD_LO", [⟨0, 32, .ro, 0⟩]⟩,
   ⟨0x094, 1, "REGN_RD_HI", [⟨0, 32, .ro, 0⟩]⟩,
   ⟨0x098, 1, "REGN_WR_LO", [⟨0, 32, .ro, 0⟩]⟩,
   ⟨0x09C, 1, "REGN_WR_HI", [⟨0, 32, .ro, 0⟩]⟩,
   ⟨0x0A0, 1, "REGN_PAGES_LO", [⟨0, 32, .ro, 0⟩]⟩]

/-- Table 18-8, part 2. -/
def regnRegsB : List RegDef :=
  [⟨0x0A4, 1, "REGN_PAGES_HI", [⟨0, 32, .ro, 0⟩]⟩,
   ⟨0x0A8, 1, "REGN_GROUPS_LO", [⟨0, 32, .ro, 0⟩]⟩,
   ⟨0x0AC, 1, "REGN_GROUPS_HI", [⟨0, 32, .ro, 0⟩]⟩]

/-- Table 18-8. -/
def regnRegs : List RegDef := regnRegsA ++ regnRegsB

/-- Table 18-11. -/
def dieRegs : List RegDef :=
  [⟨0x010, 1, "PG_CAUSE", [⟨0, 1, .w1c, 0⟩, ⟨1, 1, .w1c, 0⟩, ⟨2, 1, .w1c, 0⟩]⟩,
   ⟨0x040, 1, "DIE_VC_WT", [⟨0, 4, .rw, 4⟩, ⟨8, 4, .rw, 2⟩, ⟨16, 4, .rw, 1⟩]⟩,
   ⟨0x044, 1, "DIE_LINK", [⟨0, 1, .ro, 0⟩, ⟨4, 4, .ro, 0xF⟩]⟩,
   ⟨0x048, 1, "DIE_REPAIR", [⟨0, 15, .ro, 0⟩]⟩,
   ⟨0x050, 1, "DIE_CORR", [⟨0, 32, .rw, 0⟩]⟩,
   ⟨0x054, 1, "DIE_RESENT", [⟨0, 32, .rw, 0⟩]⟩,
   ⟨0x058, 1, "DIE_RETRAIN", [⟨0, 32, .rw, 0⟩]⟩,
   ⟨0x060, 1, "DIE_TX_LO", [⟨0, 32, .ro, 0⟩]⟩,
   ⟨0x064, 1, "DIE_TX_HI", [⟨0, 32, .ro, 0⟩]⟩,
   ⟨0x068, 1, "DIE_RX_LO", [⟨0, 32, .ro, 0⟩]⟩,
   ⟨0x06C, 1, "DIE_RX_HI", [⟨0, 32, .ro, 0⟩]⟩]

/-- Table 18-12. -/
def hbmRegs : List RegDef :=
  [⟨0x010, 1, "PG_CAUSE", [⟨0, 1, .w1c, 0⟩, ⟨1, 1, .w1c, 0⟩, ⟨2, 1, .w1c, 0⟩]⟩,
   ⟨0x040, 1, "HBM_STAT", [⟨0, 1, .ro, 0⟩, ⟨1, 1, .ro, 0⟩, ⟨2, 1, .ro, 0⟩]⟩,
   ⟨0x044, 1, "HBM_RESERVE", [⟨0, 10, .ro, 0x200⟩]⟩,
   ⟨0x048, 1, "HBM_PPR", [⟨0, 16, .ro, 0⟩, ⟨16, 16, .ro, 0⟩]⟩,
   ⟨0x04C, 1, "HBM_TEMP", [⟨0, 8, .ro, 0⟩]⟩,
   ⟨0x050, 1, "HBM_CORR", [⟨0, 32, .rw, 0⟩]⟩,
   ⟨0x054, 1, "HBM_UNCORR", [⟨0, 32, .rw, 0⟩]⟩,
   ⟨0x058, 1, "HBM_REMAP", [⟨0, 32, .rw, 0⟩]⟩,
   ⟨0x05C, 1, "HBM_RETIRED", [⟨0, 32, .rw, 0⟩]⟩,
   ⟨0x060, 1, "HBM_RD_LO", [⟨0, 32, .ro, 0⟩]⟩,
   ⟨0x064, 1, "HBM_RD_HI", [⟨0, 32, .ro, 0⟩]⟩,
   ⟨0x068, 1, "HBM_WR_LO", [⟨0, 32, .ro, 0⟩]⟩,
   ⟨0x06C, 1, "HBM_WR_HI", [⟨0, 32, .ro, 0⟩]⟩]

/-- Table 19-9. -/
def pwrRegs : List RegDef :=
  [⟨0x010, 1, "PG_CAUSE", [⟨0, 1, .w1c, 0⟩, ⟨1, 1, .w1c, 0⟩, ⟨2, 1, .w1c, 0⟩, ⟨3, 1, .w1c, 0⟩]⟩,
   ⟨0x040, 1, "PWR_PROFILE", [⟨0, 2, .rw, 1⟩, ⟨8, 8, .ro, 0⟩]⟩,
   ⟨0x044, 1, "PWR_STAT", [⟨0, 4, .ro, 0⟩, ⟨4, 5, .ro, 0xC⟩, ⟨9, 2, .ro, 0⟩, ⟨11, 1, .ro, 0⟩]⟩,
   ⟨0x048, 1, "PWR_POWER", [⟨0, 16, .ro, 0⟩]⟩,
   ⟨0x04C, 1, "PWR_BUCKET", [⟨0, 32, .ro, 0⟩]⟩,
   ⟨0x050, 1, "PWR_TJ", [⟨0, 8, .ro, 0⟩, ⟨8, 8, .ro, 0⟩]⟩,
   ⟨0x054, 1, "PWR_LIMITS", [⟨0, 7, .rwl, 0x64⟩, ⟨8, 7, .rwl, 0x5A⟩]⟩,
   ⟨0x058, 1, "PWR_RAIL_SEL", [⟨0, 3, .rw, 0⟩]⟩,
   ⟨0x05C, 1, "PWR_RAIL", [⟨0, 16, .ro, 0⟩, ⟨16, 16, .ro, 0⟩]⟩,
   ⟨0x060, 1, "PWR_AVS", [⟨0, 10, .ro, 0x320⟩]⟩,
   ⟨0x064, 1, "PWR_THROTTLES", [⟨0, 32, .rw, 0⟩]⟩,
   ⟨0x068, 1, "PWR_AVS_ERR", [⟨0, 32, .rw, 0⟩]⟩,
   ⟨0x070, 1, "PWR_ENERGY_LO", [⟨0, 32, .ro, 0⟩]⟩,
   ⟨0x074, 1, "PWR_ENERGY_HI", [⟨0, 32, .ro, 0⟩]⟩]

/-- The registers of a block beyond the common header. -/
def own : Block → List RegDef
  | .glb => glbRegs
  | .int => intRegs
  | .log => logRegs
  | .acc => accRegs
  | .clk => clkRegs
  | .rst => rstRegs
  | .pwr => pwrRegs
  | .sec => secRegs
  | .hq => hqRegs
  | .pft => pftRegs
  | .eth => ethRegs
  | .tc => tcRegs
  | .mex => mexRegs
  | .tier => tierRegs
  | .flm => flmRegs
  | .prof => profRegs
  | .res => resRegs
  | .cmp => cmpRegs
  | .pod => podRegs
  | .regn => regnRegs
  | .die => dieRegs
  | .hbm => hbmRegs

/-- The row of a block that covers an offset: its own registers first (its PG_CAUSE row names its bits), then the
common header (Table 18-2). -/
def find (b : Block) (off : Nat) : Option RegDef :=
  let hit (r : RegDef) : Bool := decide (r.off ≤ off ∧ off < r.off + 4 * r.cnt ∧ off % 4 = 0)
  match (own b).find? hit with
  | some r => some r
  | none => headerRegs.find? hit

/-- The reset value of a register: its fields' reset values in place, reserved bits zero (R8). -/
def resetOf (r : RegDef) : Nat := r.fields.foldl (fun a f => a + f.rst % 2 ^ f.width * 2 ^ f.lo) 0

/-- The mask of the fields of one of the given types. -/
def maskOf (r : RegDef) (tys : List Acc) : Nat :=
  r.fields.foldl (fun a f => if tys.contains f.ty then a + (2 ^ f.width - 1) * 2 ^ f.lo else a) 0

end RegTable
end Sys2Proof
end

