-- ==== Sys2Proof/Machine/Regs.lean ====
section
/-! DEFINITION. The register file: pages (Table 18-1), the key under which a register's contents stand, window
registers (R414), 32-bit counters (R369) and 64-bit usage counters (R368). -/
namespace Sys2Proof.Machine

/-! Page numbers (Table 18-1). -/
def pgGlb : Nat := 0x000
def pgInt : Nat := 0x001
def pgLog : Nat := 0x002
def pgAcc : Nat := 0x003
def pgClk : Nat := 0x004
def pgRst : Nat := 0x005
def pgPwr : Nat := 0x006
def pgSec : Nat := 0x008
def pgPft : Nat := 0x020
def pgTc : Nat := 0x030
def pgMex : Nat := 0x040
def pgTier : Nat := 0x050
def pgFlm : Nat := 0x060
def pgProf : Nat := 0x070
def pgRes : Nat := 0x080
def pgCmp : Nat := 0x090
/-- HQ page of a port and queue group (R300). -/
def pgHq (port group : Nat) : Nat := 0x010 + 8 * port + group
/-- ETH page of a port (R236). -/
def pgEth (port : Nat) : Nat := 0x021 + port
/-- POD page (R407). -/
def pgPod (region pod : Nat) : Nat := 0x100 + 28 * region + pod
/-- REGN page. -/
def pgRegn (region : Nat) : Nat := 0x300 + region
/-- DIE page. -/
def pgDie (die : Nat) : Nat := 0x310 + die
/-- HBM page. -/
def pgHbm (stack : Nat) : Nat := 0x320 + stack

/-- The block whose page a number is, or none where the position is reserved (R406). -/
def blockOf (page : Nat) : Option Sys2Proof.Block :=
  if page = 0x000 then some .glb else if page = 0x001 then some .int else if page = 0x002 then some .log
  else if page = 0x003 then some .acc else if page = 0x004 then some .clk else if page = 0x005 then some .rst
  else if page = 0x006 then some .pwr else if page = 0x008 then some .sec
  else if 0x010 ≤ page ∧ page < 0x020 then some .hq
  else if page = 0x020 then some .pft
  else if 0x021 ≤ page ∧ page < 0x029 then some .eth
  else if page = 0x030 then some .tc else if page = 0x040 then some .mex else if page = 0x050 then some .tier
  else if page = 0x060 then some .flm else if page = 0x070 then some .prof else if page = 0x080 then some .res
  else if page = 0x090 then some .cmp
  else if 0x100 ≤ page ∧ page < 0x2C0 then some .pod
  else if 0x300 ≤ page ∧ page < 0x310 then some .regn
  else if 0x310 ≤ page ∧ page < 0x314 then some .die
  else if 0x320 ≤ page ∧ page < 0x328 then some .hbm
  else none

/-- The table row of the register at a page and offset. -/
def regAt (page off : Nat) : Option RegDef := (blockOf page).bind fun b => RegTable.find b off

/-- Registers that all eight HQ pages of a port show alike (R300), or whose window index (queue pair, function,
partition) already names the object; HQ_HB_CFG is the same on both ports. -/
def hqHome (page off : Nat) : Nat :=
  if off < 0x040 then page
  else if off = 0x048 then 0x010
  else if page < 0x018 then 0x010 else 0x018

/-- The page under which a register's contents stand. -/
def homePage (page off : Nat) : Nat := if 0x010 ≤ page ∧ page < 0x020 then hqHome page off else page

/-- The key of a register's contents: its BAR0 address, and above it the window's index where the register is one
of a window (R414). -/
def regKey (page off win : Nat) : Nat := homePage page off * 0x1000 + off + 0x4000000 * win

/-- The reset value of a register of the file. PF0 is mapped and owns every queue pair of its port (Table 12-9); the margin
thresholds are those of Table 14-5. -/
def regReset (page off win : Nat) : Nat :=
  if 0x010 ≤ page ∧ page < 0x020 ∧ off = 0x054 then (if win = 0 then 0x100 else 0)
  else if 0x010 ≤ page ∧ page < 0x020 ∧ off = 0x058 then (if win = 0 then 4096 * 65536 else 0)
  else if page = 0x080 ∧ off = 0x060 then [50, 64, 40, 15, 20].getD win 0
  else match regAt page off with
    | some r => RegTable.resetOf r
    | none => 0

/-- What a register of the file holds, as a number. -/
def State.reg (s : State) (page off : Nat) (win : Nat := 0) : Nat :=
  match Map.find? s.regs (regKey page off win) with
  | some v => v.toNat
  | none => regReset page off win % 2 ^ 32

/-- Sets a register of the file. -/
def State.setReg (s : State) (page off : Nat) (v : Nat) (win : Nat := 0) : State :=
  { s with regs := Map.put s.regs (regKey page off win) (BitVec.ofNat 32 v) (BitVec.ofNat 32 (regReset page off win)) }

/-- A field `[lo + w - 1 : lo]` of a register of the file. -/
def State.field (s : State) (page off lo w : Nat) (win : Nat := 0) : Nat := bitsOf (s.reg page off win) lo w

/-- A number with bits `[lo + w - 1 : lo]` replaced. -/
def withBits (v lo w x : Nat) : Nat := v - bitsOf v lo w * 2 ^ lo + x % 2 ^ w * 2 ^ lo

/-- Sets a field of a register of the file. -/
def State.setField (s : State) (page off lo w x : Nat) (win : Nat := 0) : State :=
  s.setReg page off (withBits (s.reg page off win) lo w x) win

/-- What a master's selector holds (R414): its reset value until the master writes it. -/
def State.sel (s : State) (master page off : Nat) (dflt : Nat := 0) : Nat :=
  match Map.find? s.sels (master * 0x4000000 + page * 0x1000 + off) with
  | some v => v.toNat
  | none => dflt

/-- Sets a master's selector (R414). -/
def State.setSel (s : State) (master page off v : Nat) : State :=
  { s with sels := Map.insert s.sels (master * 0x4000000 + page * 0x1000 + off) (BitVec.ofNat 32 v) }

/-- A 32-bit error or event counter after `k` more events (R369). -/
def State.bump (s : State) (page off : Nat) (k : Nat := 1) (win : Nat := 0) : State :=
  s.setReg page off (sat32 (s.reg page off win) k) win

/-- A 64-bit usage counter, by the key of its low half. -/
def State.cnt64 (s : State) (page off : Nat) (win : Nat := 0) : Nat := Map.getD s.cnt (regKey page off win) 0

/-- A 64-bit usage counter after `k` more units (R368). The SAT record of R368 is raised by `countUp` (Machine/Ops.lean). -/
def State.addCnt (s : State) (page off k : Nat) (win : Nat := 0) : State :=
  { s with cnt := Map.put s.cnt (regKey page off win) (sat64 (s.cnt64 page off win) k) 0 }

/-- Appends to what the block has sent. -/
def State.send (s : State) (o : Output) : State := { s with out := s.out ++ [o] }

/-- Takes a free value: the opaque constant applied to the model's counter, which advances (log entry 5). -/
def State.draw (s : State) : Nat × State := (s.fresh, { s with fresh := s.fresh + 1 })

end Sys2Proof.Machine
end

