-- ==== Sys2Proof/Machine/Flags.lean ====
section
/-! DEFINITION. Status codes (Table 12-5), cause bits and the INT summary (R412, R420). -/
namespace Sys2Proof.Machine

/-- Status codes (Table 12-5). -/
inductive Status where
  | ok | absent | redirect | busy | full | worn | aborted | alreadyDone | denied | integrity | deadline
  | staleEpoch | invalidMode
deriving DecidableEq, Repr

/-- The code of a status (Table 12-5). -/
def Status.code : Status → Nat
  | .ok => 0x00
  | .absent => 0x01
  | .redirect => 0x02
  | .busy => 0x03
  | .full => 0x04
  | .worn => 0x05
  | .aborted => 0x06
  | .alreadyDone => 0x07
  | .denied => 0x08
  | .integrity => 0x09
  | .deadline => 0x0A
  | .staleEpoch => 0x0B
  | .invalidMode => 0x0C

/-- Whether a page's summary bit is set: PG_CAUSE AND NOT PG_MASK is non-zero (R412). -/
def State.summary (s : State) (page : Nat) : Bool :=
  (s.reg page 0x010 &&& (0xFFFFFFFF ^^^ s.reg page 0x014)) != 0

/-- The pages whose PG_CAUSE is stored, in rising order: only these can have a summary bit. -/
def State.causePages (s : State) : List Nat :=
  (s.regs.filter fun kv => decide (kv.1 < 0x4000000 ∧ kv.1 % 0x1000 = 0x010)).map fun kv => kv.1 / 0x1000

/-- The pages whose summary bit is set, in rising order. -/
def State.summaryPages (s : State) : List Nat := s.causePages.filter s.summary

/-- Sends an MSI-X message. -/
def sendMsix (port fn vector : Nat) (s : State) : State := s.send (.msix port fn vector)

/-- The summary message of INT (R420): sent to PF0 of the primary port when ARMED and EN are 1 and a summary bit
is set, once HOLDOFF_US has passed since the previous message; else it waits for INT_HOLDOFF_EXPIRY. -/
def evalInt (s : State) : State :=
  let ctrl := s.reg pgInt 0x040
  if s.field pgInt 0x044 0 1 = 1 ∧ bitOf ctrl 6 ∧ s.summaryPages ≠ [] then
    let clear : Bool := match s.lastMsg with
      | some t => decide (t + bitsOf ctrl 16 8 * 1000 ≤ s.time)
      | none => true
    if clear then
      { sendMsix s.primary 0 (bitsOf ctrl 0 6) ((s.setField pgInt 0x044 0 1 0).bump pgInt 0x050) with
        lastMsg := some s.time, msgPending := false }
    else { s with msgPending := true }
  else s

/-- Sets a bit of a page's PG_CAUSE (R412) and evaluates the summary. -/
def setCause (page bit : Nat) (s : State) : State :=
  evalInt (s.setReg page 0x010 (s.reg page 0x010 ||| 2 ^ bit))

end Sys2Proof.Machine
end

