-- ==== Sys2Proof/Machine/Ether.lean ====
section
/-! DEFINITION. The headers around a PFT packet, in network byte order (R9): Ethernet with at most one 802.1Q tag (R237), IPv6
and UDP (R239). The layouts and the checksum are those of the standards that Table 10-2 and R239 name (log entry 145). -/
namespace Sys2Proof.Machine

/-! ## Addresses (R239, R384) -/

/-- The link-local address: fe80::/64 with interface identifier 0x4820 followed by the serial number. -/
def State.linkLocal (s : State) : Bytes := toBE 2 0xFE80 ++ zeros 6 ++ toBE 2 0x4820 ++ toBE 6 s.fuses.serial

/-- PFT_ADDR in network byte order: register 0 holds address bytes 12 to 15. -/
def State.pftAddr (s : State) : Bytes :=
  toBE 4 (s.reg pgPft 0x060) ++ toBE 4 (s.reg pgPft 0x05C) ++ toBE 4 (s.reg pgPft 0x058) ++ toBE 4 (s.reg pgPft 0x054)

/-- Whether an address is one of the node's own: PFT_ADDR, or the link-local address of its ports. -/
def State.ownAddr (s : State) (a : Bytes) : Bool := a == s.pftAddr || a == s.linkLocal

/-- The bytes of a node's PFT address as the node table holds it. -/
def State.nodeAddr (s : State) (node : Nat) : Bytes :=
  toBE 4 (s.reg pgPft 0x080 node) ++ toBE 4 (s.reg pgPft 0x07C node) ++ toBE 4 (s.reg pgPft 0x078 node) ++ toBE 4 (s.reg pgPft 0x074 node)

/-- Where packets to a node go: to its address in the node table, and to the address it sent from where it has no valid entry (log
entry 146). -/
def State.reach (s : State) (node : Nat) (src : Bytes) : Bytes :=
  if s.field pgPft 0x084 0 1 node = 1 then s.nodeAddr node else src

/-- A port's MAC address (ETH_MAC). -/
def State.portMac (s : State) (port : Nat) : Bytes := toBE 2 (s.reg (pgEth port) 0x04C) ++ toBE 4 (s.reg (pgEth port) 0x048)

/-- The next-hop MAC address of a port (R239): ETH_NH_MAC, or with that zero the one it has resolved. -/
def State.nextMac (s : State) (port : Nat) : Option Bytes :=
  if s.reg (pgEth port) 0x050 != 0 || s.reg (pgEth port) 0x054 != 0 then
    some (toBE 2 (s.reg (pgEth port) 0x054) ++ toBE 4 (s.reg (pgEth port) 0x050))
  else Map.find? s.pft.nextHop port

/-! ## Headers -/

/-- Ethernet type of IPv6, and of an 802.1Q tag. -/
def typeIp6 : Nat := 0x86DD
def typeTag : Nat := 0x8100

/-- The IPv6 next header of UDP. -/
def nextUdp : Nat := 17

/-- An Ethernet header that carries IPv6, with the tag's 16 bits where the frame is tagged. -/
def etherHeader (dst src : Bytes) (tag : Option Nat) : Bytes :=
  dst ++ src ++ (match tag with | some t => toBE 2 typeTag ++ toBE 2 t | none => []) ++ toBE 2 typeIp6

/-- An IPv6 header with hop limit 64 (R239). -/
def ip6Header (tclass flow len next : Nat) (src dst : Bytes) : Bytes :=
  toBE 4 (0x60000000 + tclass * 0x100000 + flow) ++ toBE 2 len ++ [BitVec.ofNat 8 next, 64] ++ src ++ dst

/-- A sum of 16-bit words with its carries added in again. -/
def carrySum (a b : Nat) : Nat := (a + b) % 65536 + (a + b) / 65536

/-- That sum over the big-endian words of a block, an odd last byte with zero behind it. -/
def wordSum : Bytes → Nat
  | [] => 0
  | [a] => a.toNat * 256
  | a :: b :: r => carrySum (a.toNat * 256 + b.toNat) (wordSum r)

/-- The sum a UDP checksum is taken over: the addresses, the length and next header 17, and the datagram. -/
def udpSum (src dst datagram : Bytes) : Nat :=
  wordSum (src ++ dst ++ toBE 4 datagram.length ++ toBE 4 nextUdp ++ datagram)

/-- A UDP datagram. Its checksum is always computed, and a zero one is sent as 0xFFFF, so zero says that there is none. -/
def datagram (src dst : Bytes) (sport dport : Nat) (data : Bytes) : Bytes :=
  let ends := toBE 2 sport ++ toBE 2 dport ++ toBE 2 (8 + data.length)
  let sum := 65535 - udpSum src dst (ends ++ zeros 2 ++ data)
  ends ++ toBE 2 (if sum = 0 then 65535 else sum) ++ data

end Sys2Proof.Machine

namespace Sys2Proof

/-! ## A frame that carries a PFT packet -/

/-- Bytes of a frame around a PFT packet's header and payload: what stands before them, and the FCS. -/
def Packet.frameLen (p : Packet) : Nat := p.outer.length + p.hdr.length + p.payload.length + 4

/-- Where the IPv6 header of an arriving frame begins: behind the tag, if there is one. -/
def Packet.ip (p : Packet) : Nat := if beAt p.outer 12 2 = Machine.typeTag then 18 else 14

/-- The VLAN ID of its tag. -/
def Packet.vid (p : Packet) : Option Nat := if beAt p.outer 12 2 = Machine.typeTag then some (beAt p.outer 14 2 % 4096) else none

/-- Its IPv6 source and destination. -/
def Packet.src (p : Packet) : Bytes := slice p.outer (p.ip + 8) 16
def Packet.dst (p : Packet) : Bytes := slice p.outer (p.ip + 24) 16

/-- Whether its lengths and its UDP checksum are right; a checksum of zero is wrong (R239). -/
def Packet.csumOk (p : Packet) : Bool :=
  let udp := p.outer.drop (p.ip + 40) ++ p.hdr ++ p.payload
  beAt p.outer (p.ip + 4) 2 == udp.length && beAt udp 4 2 == udp.length && beAt udp 6 2 != 0
    && Machine.udpSum p.src p.dst udp == 65535

end Sys2Proof

namespace Sys2Proof.Machine

/-- Whether a frame is for the node (R237, R239): sent to the port's MAC address, with the port's VLAN tag and no other, IPv6 without
an extension header, to one of the node's addresses, UDP to PFT_UDP.DPORT. -/
def State.addressed (s : State) (p : Packet) : Bool :=
  p.outer.take 6 == s.portMac p.port
    && p.vid == (if s.field (pgEth p.port) 0x058 12 1 = 1 then some (s.field (pgEth p.port) 0x058 0 12) else none)
    && beAt p.outer (p.ip - 2) 2 == typeIp6 && byteAt p.outer p.ip / 16 == 6 && p.outer.length == p.ip + 48
    && byteAt p.outer (p.ip + 6) == nextUdp && s.ownAddr p.dst
    && beAt p.outer (p.ip + 42) 2 == s.field pgPft 0x044 0 16

/-- The headers before a PFT packet that leaves a port in a class with a priority (R237, R239, R242, R264): `sport` and `flow`
encode its path, and the tag's PCP is the priority. -/
def State.outerOf (s : State) (port prio tclass : Nat) (dst : Bytes) (sport flow : Nat) (data : Bytes) : Bytes :=
  let tag := if s.field (pgEth port) 0x058 12 1 = 1 then some (prio * 8192 + s.field (pgEth port) 0x058 0 12) else none
  etherHeader ((s.nextMac port).getD (zeros 6)) (s.portMac port) tag
    ++ ip6Header tclass flow (8 + data.length) nextUdp s.pftAddr dst
    ++ (datagram s.pftAddr dst sport (s.field pgPft 0x044 0 16) data).take 8

end Sys2Proof.Machine
end

