-- ==== Sys2Proof/Machine/Transmit.lean ====
section
/-! DEFINITION. Sending over PFT: headers (Table 10-3), the split of a message into packets (R241), paths (R242), the
send window (R248) and the class queue a frame waits in (R263 to R266). -/
namespace Sys2Proof.Machine

/-- This node's ID (PFT_NODE). -/
def State.nodeId (s : State) : Nat := s.field pgPft 0x064 0 12

/-- The ports of the mode in force (Table 10-1). -/
def Pft.ports (p : Pft) : Nat := if p.portMode = 0 then 2 else if p.portMode = 1 then 4 else 8

/-- The ports that are up, in port order. -/
def State.upPorts (s : State) : List Nat := (List.range s.pft.ports).filter fun k => !s.pft.down.contains k

/-- Payload bytes per packet (PFT_CTRL.MTU). -/
def State.mtu (s : State) : Nat := 1024 * 2 ^ s.field pgPft 0x040 2 2

/-- PFT_CTRL.ENABLE. -/
def State.pftEnabled (s : State) : Bool := decide (s.field pgPft 0x040 16 1 = 1)

/-- A frame's Ethernet bytes, destination address through FCS, for a PFT packet of the given payload (R266). -/
def frameBytes (tagged : Bool) (payload : Nat) : Nat := 14 + (if tagged then 4 else 0) + 40 + 8 + 40 + payload + 4

/-- The signed overhead of a port (TC_OVERHEAD, R266). -/
def State.overhead (s : State) (port : Nat) : Int :=
  let v := s.field pgTc 0x054 0 7 port
  if v < 64 then (v : Int) else (v : Int) - 128

/-- ETH_VLAN.TAGGED of a port. -/
def State.tagged (s : State) (port : Nat) : Bool := decide (s.field (pgEth port) 0x058 12 1 = 1)

/-- The priority of a source kind (TC_KIND_PRIO, R263). -/
def State.priorityOf (s : State) (kind : Nat) : Nat := bitsOf (s.reg pgTc 0x040) (3 * kind) 3

/-- The class of a source kind: its priority through TC_PRIO_MAP (R263). -/
def State.classOf (s : State) (kind : Nat) : Nat := bitsOf (s.reg pgTc 0x044) (3 * s.priorityOf kind) 3

/-- The entity a frame is charged to (R265). -/
def entityOf (kind part : Nat) : Option Nat :=
  if kind ≤ 2 then some part else if kind ≤ 5 then some 256 else none

/-- Queues a frame in its class queue of a port. -/
def queueFrame (port : Nat) (f : Frame) (s : State) : State :=
  let key := port * 8 + s.classOf f.kind
  let q := Map.getD s.tc.queues key [] ++ [f]
  { s with tc := { s.tc with queues := Map.insert s.tc.queues key q } }

/-- Hands a PFT packet to port (path mod n) among the n ports that are up (R242). With none up, or with
PFT_CTRL.ENABLE 0, nothing is sent. -/
def sendPacket (addr : Bytes) (kind part path : Nat) (hdr payload : Bytes) (s : State) : State :=
  match s.upPorts with
  | [] => s
  | ups =>
    if s.pftEnabled then
      let port := ups.getD (path % ups.length) 0
      queueFrame port { what := 0, addr, kind, entity := entityOf kind part, len := frameBytes (s.tagged port) payload.length,
                        hdr, payload } s
    else s

/-- A PFT header (Table 10-3): VER 1, the type, the flag bits, and the 24 bytes that depend on the type. -/
def pftHeader (typ flags dst src node psn path msg : Nat) (rest : Bytes) : Bytes :=
  BitVec.ofNat 8 (16 + typ) :: BitVec.ofNat 8 flags :: toBE 2 dst ++ toBE 2 src ++ toBE 2 node
    ++ toBE 4 (path * 0x1000000 + psn % 0x1000000) ++ toBE 4 (msg % 2 ^ 32) ++ rest.take 24

/-- Splits a message into packets of `mtu` bytes, the last one shorter (R241). -/
def chunks (mtu : Nat) : Nat → Bytes → List Bytes
  | 0, _ => []
  | fuel + 1, d => if d.length ≤ mtu then [d] else d.take mtu :: chunks mtu fuel (d.drop mtu)

/-- What a sender wants to send on a connection. `rkey` and `off` are the region of a WRITE, or RET_RKEY and RET_OFF
of a CMD SEND. -/
structure Outgoing where
  typ : Nat                  -- 1 SEND, 2 WRITE, 7 EVENT
  fin : Bool
  cmd : Bool
  kind : Nat                 -- source kind (Table 11-1)
  data : Bytes
  rkey : Nat
  off : Nat
  cid : Nat
  port : Nat
  qp : Nat                   -- 65535: no completion entry
  stream : Nat
  buoy : Nat
  page : Nat
  seals : Bool
deriving DecidableEq, Repr

/-- An outgoing message of the Keeper's own, with no completion entry. -/
def keeperMsg (typ : Nat) (fin cmd : Bool) (kind : Nat) (data : Bytes) (rkey off : Nat) : Outgoing :=
  { typ, fin, cmd, kind, data, rkey, off, cid := 0, port := 0, qp := 65535, stream := 0, buoy := 0, page := 0,
    seals := false }

/-- Bytes 16 to 39 of a packet of a message (Table 10-3). -/
def packetRest (o : Outgoing) (total at_ : Nat) : Bytes :=
  if o.typ = 1 then toBE 4 o.data.length ++ toBE 4 at_ ++ toBE 4 o.rkey ++ toBE 8 o.off ++ zeros 4
  else if o.typ = 2 then
    toBE 4 o.rkey ++ toBE 8 (o.off + at_) ++ toBE 4 o.data.length ++ toBE 4 (total % 2 ^ 32) ++ zeros 4
  else zeros 24

/-- Flag bits of a packet: FIN, CMD, and ACKREQ on the last packet of the message (Table 10-3). -/
def packetFlags (o : Outgoing) (last : Bool) : Nat :=
  (if o.fin then 1 else 0) + (if o.cmd then 2 else 0) + (if last then 4 else 0)

/-- The packets of a message, PSNs in byte order (R241), paths in rotation (R242). -/
def buildPackets (node : Nat) (paths : Nat) (c : Conn) (cid : Nat) (o : Outgoing) (total : Nat) (mtu : Nat) : List TxPkt :=
  let parts := chunks mtu (o.data.length + 1) o.data
  let n := parts.length
  (List.range n).map fun j =>
    let path := (c.path + j) % paths
    let psn := (c.nextPsn + j) % 0x1000000
    let d := parts.getD j []
    { psn, addr := c.addr, path, kind := o.kind, payload := d,
      hdr := pftHeader o.typ (packetFlags o (decide (j + 1 = n))) c.peer cid node psn path
        (if o.typ = 7 then 0 else c.nextMsg) (packetRest o total (j * mtu)) }

/-- Whether a PSN lies in the send window (R248). -/
def inWindow (oldest psn w : Nat) : Bool := decide ((psn + 0x1000000 - oldest) % 0x1000000 < w)

/-- Sends one sequenced packet and counts it. -/
def txPkt (part : Nat) (p : TxPkt) (s : State) : State :=
  ((sendPacket p.addr p.kind part p.path p.hdr p.payload s).addCnt pgPft 0x0A0 1).addCnt pgPft 0x0B0 p.payload.length

/-- Replaces a connection. -/
def State.setConn (s : State) (i : Nat) (c : Conn) : State :=
  { s with pft := { s.pft with conns := Map.insert s.pft.conns i c } }

/-- Changes a connection. -/
def State.updConn (s : State) (i : Nat) (f : Conn → Conn) : State :=
  { s with pft := { s.pft with conns := Map.adjust s.pft.conns i f } }

/-- Starts a connection's retransmission timer anew (R250): it runs from now, first for PFT_RTO.RTO_US. -/
def State.startTimer (s : State) (c : Conn) : Conn := { c with timer := s.time, rto := s.field pgPft 0x048 0 9, expiries := 0 }

/-- Moves packets that have come into the window from the wait queue to the unacknowledged ones and sends them (R248). The timer
starts with the first packet that is unacknowledged (R250). -/
def pump : Nat → Nat → State → State
  | 0, _, s => s
  | fuel + 1, i, s =>
    match Map.find? s.pft.conns i with
    | none => s
    | some c =>
      match c.waitq with
      | [] => s
      | p :: rest =>
        if inWindow c.oldest p.psn (s.field pgPft 0x04C 0 12) then
          let c1 := if c.pkts = [] then s.startTimer c else c
          pump fuel i (txPkt c.part p (s.setConn i { c1 with waitq := rest, pkts := c.pkts ++ [p] }))
        else s

/-- Puts a message on connection `i` (R241, R248). A connection that is neither OPEN nor CLOSING sends nothing. -/
def placeMessage (i : Nat) (o : Outgoing) (s : State) : State :=
  match Map.find? s.pft.conns i with
  | none => s
  | some c =>
    if c.state = .opened ∨ c.state = .closing then
      let total := if o.typ = 2 then c.txTotal + o.data.length else c.txTotal
      let pkts := buildPackets s.nodeId (max 1 (s.field pgPft 0x040 4 5)) c i o total s.mtu
      let c' : Conn := { c with
        nextPsn := (c.nextPsn + pkts.length) % 0x1000000,
        path := (c.path + pkts.length) % max 1 (s.field pgPft 0x040 4 5),
        nextMsg := if o.typ = 7 then c.nextMsg else (c.nextMsg + 1) % 2 ^ 32,
        txTotal := total % 2 ^ 32,
        waitq := c.waitq ++ pkts,
        msgs := if o.typ = 7 then c.msgs else c.msgs ++ [{
          msg := c.nextMsg, isWrite := decide (o.typ = 2), fin := o.fin, first := c.nextPsn,
          last := (c.nextPsn + pkts.length - 1) % 0x1000000, cid := o.cid, port := o.port, qp := o.qp, err := 0,
          stream := o.stream, buoy := o.buoy, page := o.page, seals := o.seals }] }
      pump pkts.length i (s.setConn i c')
    else s

/-- The OPEN Keeper connection to a node (R244). -/
def State.keeperConn (s : State) (node : Nat) : Option Nat :=
  (List.find? (fun kv => kv.2.keeper && kv.2.state == .opened && kv.2.node == node) s.pft.conns).map (·.1)

end Sys2Proof.Machine
end

