-- ==== Sys2Proof/Machine/Ops.lean ====
section
/-! DEFINITION. The named operations that every family of commands shares: Foghorn records (R259, R260), usage counters,
rights (R317, R318), the change log (R323 to R326), completions (R286 to R289), result blocks and the commit of a
request (R159, R163). -/
namespace Sys2Proof.Machine

/-! ## Foghorn records -/

/-- A record before it is numbered (Table 10-6). -/
structure Event where
  sev : Nat
  cls : Nat
  code : Nat
  part : Option Nat
  page : Nat
  d0 : Nat
  d1 : Nat
  d2 : Nat
  d3 : Nat := 0
deriving DecidableEq, Repr

/-- The 64 bytes of a record (Table 10-6). -/
def Event.bytes (e : Event) (seq time node boot : Nat) : Bytes :=
  BitVec.ofNat 8 (1 + 16 * e.sev) :: BitVec.ofNat 8 e.cls :: toLE 2 e.code ++ toLE 4 seq ++ toLE 8 time ++ toLE 2 node
    ++ toLE 2 boot ++ toLE 2 (e.part.getD 0x1FF) ++ toLE 2 e.page ++ toLE 8 e.d0 ++ toLE 8 e.d1 ++ toLE 8 e.d2
    ++ toLE 8 e.d3 ++ zeros 8

/-- The partition a function is mapped to (R276). -/
def State.fnPart (s : State) (port fn : Nat) : Option Nat :=
  let m := s.reg (pgHq port 0) 0x054 fn
  if bitOf m 8 then some (bitsOf m 0 8) else none

/-- An event queue's place. -/
def eqKey (port fn : Nat) : Nat := port * 64 + fn

/-- What an event queue holds that nothing has entered. -/
def EventQueue.empty : EventQueue := ⟨0, 0, 0⟩

/-- An event queue. -/
def State.eq (s : State) (port fn : Nat) : EventQueue := Map.getD s.eqs (eqKey port fn) .empty

/-- Replaces an event queue. -/
def State.setEq (s : State) (port fn : Nat) (q : EventQueue) : State :=
  { s with eqs := Map.insert s.eqs (eqKey port fn) q }

/-- Writes a record to a function's event ring, then the tail shadow, then sends its vector (R294). A full ring loses
the record (R260); a disabled queue is none that the record goes to (log entry 20). -/
def postEvent (port fn : Nat) (rec : Bytes) (s : State) : State :=
  let cfg := s.reg (pgHq port 0) 0x090 fn
  if bitOf cfg 16 then
    let n := 2 ^ bitsOf cfg 0 4
    let q := s.eq port fn
    if (q.tail + 1) % n = q.head then
      setCause pgPft 5 ((s.setEq port fn { q with lost := q.lost + 1 }).bump pgPft 0x0E0)
    else
      let s1 := (s.setEq port fn { q with tail := (q.tail + 1) % n }).send (.eventRecord port fn q.tail rec)
      sendMsix port fn (bitsOf cfg 8 6) (s1.send (.shadow port fn ((q.tail + 1) % n)))
  else s

/-- The functions whose event queues a record of partition `p` goes to: those mapped to it, and PF0 of the primary
host (R260). -/
def State.eventTargets (s : State) (p : Nat) : List (Nat × Nat) :=
  let mapped := ((List.range 128).map fun k => (k / 64, k % 64)).filter fun pf => s.fnPart pf.1 pf.2 == some p
  if mapped.contains (s.primary, 0) then mapped else mapped ++ [(s.primary, 0)]

/-- The subscribed peers whose class mask includes a class (R260). -/
def State.subscribers (s : State) (cls : Nat) : List Nat :=
  ((List.range 64).map fun i => s.reg pgPft 0x0E8 i).filterMap fun v =>
    if bitOf v 15 ∧ bitOf v (16 + cls) then some (bitsOf v 0 12) else none

/-- Sends a record as an EVENT on the Keeper connection to a peer; without an OPEN one nothing is sent (R260). -/
def sendEvent (rec : Bytes) (s : State) (node : Nat) : State :=
  match s.keeperConn node with
  | some i => placeMessage i (keeperMsg 7 false false 5 rec 0 0) s
  | none => s

/-- Numbers a record and delivers it to the event queues and peers it goes to (R259, R260). -/
def deliverEvent (e : Event) (s : State) : State :=
  let bs := e.bytes s.pft.fogSeq s.time s.nodeId (s.boot.count % 65536)
  let s1 : State := { s with pft := { s.pft with fogSeq := (s.pft.fogSeq + 1) % 2 ^ 32 } }
  match e.part with
  | some p => (s1.eventTargets p).foldl (fun t pf => postEvent pf.1 pf.2 bs t) s1
  | none => (s1.subscribers e.cls).foldl (sendEvent bs) (postEvent 1 0 bs (postEvent 0 0 bs s1))

/-- A record about no partition, with up to two details. -/
def event (sev cls code page : Nat) (d0 d1 : Nat := 0) : Event :=
  { sev, cls, code, part := none, page, d0, d1, d2 := 0 }

/-- A record about a partition. -/
def eventFor (part : Option Nat) (sev cls code page : Nat) (d0 d1 d2 : Nat := 0) : Event :=
  { sev, cls, code, part, page, d0, d1, d2 }

/-- The largest count of a 64-bit usage counter (R368). -/
def cntMax : Nat := 0xFFFFFFFFFFFFFFFF

/-- Packets and bytes sent count as they are sent (Table 10-8). Where that first saturates PFT_TXPKT or PFT_TXB, the page's SAT bit
sets and COUNTER_SAT is raised (R368). -/
def reportSat (s t : State) : State :=
  [0x0A0, 0x0B0].foldl (fun u off =>
    if s.cnt64 pgPft off < cntMax ∧ u.cnt64 pgPft off = cntMax then
      deliverEvent (event 1 8 0x0811 pgPft pgPft off) (u.setField pgPft 0x00C 5 1 1)
    else u) t

/-- Raises a record (R259, R260). -/
def raise (e : Event) (s : State) : State := reportSat s (deliverEvent e s)

/-- Sends a message on connection `i` (R241, R248). -/
def sendMessage (i : Nat) (o : Outgoing) (s : State) : State := reportSat s (placeMessage i o s)

/-- Counts units on a usage counter. When it first saturates, the page's SAT bit sets and COUNTER_SAT is raised
(R368). -/
def countUp (page off k : Nat) (s : State) (win : Nat := 0) : State :=
  let s1 := s.addCnt page off k win
  if s.cnt64 page off win < cntMax ∧ s1.cnt64 page off win = cntMax then
    raise (event 1 8 0x0811 page page off) (s1.setField (homePage page off) 0x00C 5 1 1)
  else s1

/-! ## Rights -/

/-- The rights of Table 13-6, in force while the configuration holds no access tables (R317): 0 NONE, 1 READ, 2 WRITE,
3 ADMIN. -/
def resetRight (master target : Nat) : Nat :=
  if master = 0x000 ∨ master = 0x040 ∨ master = 0x080 ∨ master = 0x081 then 3
  else if master < 0x040 then (if (0x010 ≤ target ∧ target < 0x018) ∨ target = 0x008 then 2 else 0)
  else if master < 0x080 then (if (0x018 ≤ target ∧ target < 0x020) ∨ target = 0x008 then 2 else 0)
  else if 0x100 ≤ master ∧ master < 0x200 then (if target = 0x300 + master then 2 else 0)
  else if master = 0x3FF then (if target < 0x400 then 1 else 0)
  else 0

/-- A master's right on a target (R317). -/
def State.right (s : State) (master target : Nat) : Nat :=
  Map.getD s.rights (target * 1024 + master) (resetRight master target)

/-- Sets a master's right on a target, stored where it differs from Table 13-6. -/
def State.setRight (s : State) (master target r : Nat) : State :=
  { s with rights := Map.put s.rights (target * 1024 + master) r (resetRight master target) }

/-- The target of a partition's pages (R317). -/
def partTarget (p : Nat) : Nat := 0x400 + p

/-- Counts a refusal for want of a right (R318). -/
def deny (master target : Nat) (s : State) : State :=
  setCause pgAcc 1 ((s.bump pgAcc 0x070).setReg pgAcc 0x074 (master % 1024 + target % 2048 * 65536))

/-! ## The change log -/

/-- Raises the measurement generation (R316). -/
def bumpMeas (s : State) : State := setCause pgSec 4 (s.setReg pgSec 0x058 (s.reg pgSec 0x058 + 1))

/-- The 64 bytes of a record (R324). -/
def LogRec.bytes (r : LogRec) : Bytes :=
  toLE 8 r.seq ++ toLE 4 r.boot ++ toLE 2 (r.master % 1024 + r.kind * 4096) ++ toLE 2 r.target ++ toLE 8 r.time
    ++ toLE 4 r.offset ++ zeros 4 ++ toLE 8 r.old ++ toLE 8 r.new ++ r.link.take 16

/-- The largest number of records the ring holds (R325). -/
def logRing : Nat := 262144

/-- Appends a record numbered `seq` to the log (R324 to R326): LINK is the previous head's first 16 bytes, the head is hashed
on, a checkpoint falls due after SEQ 1,023 modulo 1,024, and the measured state has changed (R315, block 5). -/
def appendRec (seq master kind target offset old new : Nat) (s : State) : State :=
  let r : LogRec := ⟨seq, s.boot.count, master, kind, target, s.time, offset, old, new, s.log.head.take 16⟩
  let head := Sha256.hash (s.log.head ++ r.bytes)
  let full := decide (logRing ≤ s.log.recs.length)
  let due := decide (seq % 1024 = 1023)
  let l : Log := { s.log with recs := (r :: s.log.recs).take logRing, seq := seq, head := head }
  let l1 : Log := if due then
      (if l.ckpt.isSome then { l with due := some (seq, head) } else { l with ckpt := some (seq, head) })
    else l
  let s1 := bumpMeas { s with log := l1 }
  if full then setCause pgLog 2 s1 else s1

/-- Appends the next record (R324). -/
def logRec (master kind target offset old new : Nat) (s : State) : State :=
  appendRec ((s.log.seq + 1) % 2 ^ 64) master kind target offset old new s

/-- A COMMAND record (Table 13-8). -/
def logCommand (master target offset old new : Nat) (s : State) : State := logRec master 2 target offset old new s

/-- A REGISTER record; PG_CHG counts it and PG_OWNER names the master (Table 18-2). `sel` is the selector in force. -/
def regRecord (master page off old new sel : Nat) (s : State) : State :=
  let s1 := logRec master 0 page off (old + sel * 2 ^ 32) (new + sel * 2 ^ 32) s
  (s1.setReg page 0x020 (s1.reg page 0x020 + 1)).setReg page 0x024 master

/-! ## Completions -/

/-- A queue pair's place. -/
def qKey (port qp : Nat) : Nat := port * 4096 + qp

/-- A queue pair that nothing has used (R282). -/
def Queue.empty : Queue :=
  { sqHead := 0, sqTail := 0, cqHead := 0, cqTail := 0, phase := true, held := [], heldSince := 0, stalled := false,
    unsignalled := 0, firstUnsignalled := 0, disabling := false, inflight := [] }

/-- A queue pair's run-time side. -/
def State.queue (s : State) (port qp : Nat) : Queue := Map.getD s.queues (qKey port qp) .empty

/-- Replaces a queue pair's run-time side. -/
def State.setQueue (s : State) (port qp : Nat) (q : Queue) : State :=
  { s with queues := Map.insert s.queues (qKey port qp) q }

/-- HQ_Q_CFG of a queue pair. -/
def State.qCfg (s : State) (port qp : Nat) : Nat := s.reg (pgHq port 0) 0x074 qp

/-- HQ_Q_CFG.ENABLE. -/
def State.qEnabled (s : State) (port qp : Nat) : Bool := bitOf (s.qCfg port qp) 23

/-- Entries of a queue pair's SQ and CQ. -/
def State.sqSize (s : State) (port qp : Nat) : Nat := 2 ^ bitsOf (s.qCfg port qp) 0 5
def State.cqSize (s : State) (port qp : Nat) : Nat := 2 ^ bitsOf (s.qCfg port qp) 8 5

/-- The function whose range holds a queue pair: a VF if one's range does, else PF0 (R282). -/
def State.queueFn (s : State) (port qp : Nat) : Nat :=
  let owns (f : Nat) : Bool :=
    let v := s.reg (pgHq port 0) 0x058 f
    decide (bitsOf v 0 12 ≤ qp ∧ qp < bitsOf v 0 12 + bitsOf v 16 13)
  (((List.range 64).drop 1).find? owns).getD 0

/-- The 32 bytes of a completion entry (Table 12-4). -/
def cqeBytes (e : Cqe) (phase : Bool) (sqHead : Nat) : Bytes :=
  toLE 8 e.tag ++ [BitVec.ofNat 8 e.status,
      BitVec.ofNat 8 ((if phase then 1 else 0) + (if e.trunc then 2 else 0) + 4 * e.kind)]
    ++ toLE 2 e.cid ++ zeros 2 ++ toLE 2 sqHead ++ toLE 4 e.bytes ++ toLE 4 e.aux ++ zeros 8

/-- Signals a CQ's interrupt after an entry, as HQ_Q_COAL says (R288, Table 12-9). -/
def signal (port qp : Nat) (s : State) : State :=
  let cfg := s.qCfg port qp
  if bitOf cfg 22 then
    let q := s.queue port qp
    let n := q.unsignalled + 1
    if bitsOf (s.reg (pgHq port 0) 0x07C qp) 0 8 ≤ n then
      sendMsix port (s.queueFn port qp) (bitsOf cfg 16 6) (s.setQueue port qp { q with unsignalled := 0 })
    else
      let first := if q.unsignalled = 0 then s.time else q.firstUnsignalled
      s.setQueue port qp { q with unsignalled := n, firstUnsignalled := first }
  else s

/-- Writes an entry at the CQ tail with the phase of this pass (R287), then signals. -/
def writeCqe (port qp : Nat) (e : Cqe) (s : State) : State :=
  let q := s.queue port qp
  let n := s.cqSize port qp
  let tail := (q.cqTail + 1) % n
  let s1 := s.setQueue port qp { q with cqTail := tail, phase := if tail = 0 then !q.phase else q.phase }
  signal port qp (s1.send (.completion port qp q.cqTail (cqeBytes e q.phase q.sqHead)))

/-- Whether a CQ has no free entry (R282, R289). -/
def State.cqFull (s : State) (port qp : Nat) : Bool :=
  let q := s.queue port qp
  decide ((q.cqTail + 1) % s.cqSize port qp = q.cqHead)

/-- Posts a completion: written, or held in order behind those already held when the CQ is full (R289). A queue pair
that is not enabled has no ring, and nothing is written. -/
def postCqe (port qp : Nat) (e : Cqe) (s : State) : State :=
  if s.qEnabled port qp then
    let q := s.queue port qp
    if q.held ≠ [] then s.setQueue port qp { q with held := q.held ++ [e] }
    else if s.cqFull port qp then s.setQueue port qp { q with held := [e], heldSince := s.time, stalled := false }
    else writeCqe port qp e s
  else s

/-- Writes held completions while the CQ has room (R289). -/
def drainCq (port qp : Nat) : Nat → State → State
  | 0, s => s
  | fuel + 1, s =>
    match (s.queue port qp).held with
    | [] => s
    | e :: rest =>
      if s.cqFull port qp then s
      else
        let s1 := s.setQueue port qp { s.queue port qp with held := rest, heldSince := s.time, stalled := false }
        drainCq port qp fuel (writeCqe port qp e s1)

/-- The disable of a queue pair takes effect once its accepted commands have completed (R282). -/
def settleDisable (port qp : Nat) (s : State) : State :=
  let q := s.queue port qp
  if q.disabling ∧ q.inflight = [] ∧ q.held = [] then
    (s.setQueue port qp { Queue.empty with sqTail := 0 }).setReg (pgHq port 0) 0x074
      (withBits (s.qCfg port qp) 23 1 0) qp
  else s

/-- A command accepted from a queue pair is in flight until its commit. -/
def holdCid (src : Src) (s : State) : State :=
  match src with
  | .host port _ qp cid _ _ =>
    let q := s.queue port qp
    if q.inflight.contains cid then s else s.setQueue port qp { q with inflight := q.inflight ++ [cid] }
  | _ => s

/-- The master a command's source stands for (R276, R243). -/
def State.masterOf (s : State) (src : Src) : Nat :=
  match src with
  | .host port fn _ _ _ _ => port * 0x40 + fn
  | .pft conn _ _ _ =>
    match Map.find? s.pft.conns conn with
    | some c => if c.keeper then 0x080 else 0x100 + c.part
    | none => 0x080
  | .own req _ => match Map.find? s.reqs req with | some r => r.master | none => 0x080
  | .keeper => 0x080

/-- The partition a command's source stands for (R276, R243). -/
def State.srcPart (s : State) (src : Src) : Option Nat :=
  match src with
  | .host port fn _ _ _ _ => s.fnPart port fn
  | .pft conn _ _ _ =>
    match Map.find? s.pft.conns conn with
    | some c => if c.keeper then none else some c.part
    | none => none
  | .own req _ => match Map.find? s.reqs req with | some r => r.part | none => none
  | .keeper => none

/-- Counts `k` units on a metering counter of a slot (R366): 0 TIME, 1 HBM, 2 NAND, 3 MAC, 4 FABRIC. A first saturation also
sets the slot's CMP_MSAT bit and the page's SAT cause (R371). -/
def meter (slot kind k : Nat) (s : State) : State :=
  let off := 0x064 + 8 * kind
  let s1 := countUp pgCmp off k s slot
  if s.cnt64 pgCmp off slot < cntMax ∧ s1.cnt64 pgCmp off slot = cntMax then
    setCause pgCmp 3 (s1.setReg pgCmp 0x060 (s1.reg pgCmp 0x060 slot ||| 2 ^ kind) slot)
  else s1

/-- Returns the buffer of a command that came in a SEND with a KIND 2 entry (R252, R286): the buffer that message `msg` of this
connection, wholly received, was placed in. -/
def returnBuffer (conn msg status : Nat) (s : State) : State :=
  match s.pft.sends.find? fun p => p.conn == conn && p.cmd && p.msg == msg && decide (p.len ≤ p.got) with
  | none => s
  | some p =>
    let s1 : State := { s with pft := { s.pft with sends := s.pft.sends.erase p } }
    match Map.find? s.srqs p.part with
    | none => s1
    | some q =>
      postCqe q.port (bitsOf (s.reg (pgHq q.port 0) 0x0AC p.part) 16 12)
        { tag := p.buf.tag + conn * 2 ^ 32, status, trunc := false, kind := 2, cid := 0, bytes := 0, aux := 0 } s1

/-- Delivers a result block and the completion entry of a command (R288), or sends the result back as one WRITE flagged FIN
and returns the buffer (R252); the bytes of that WRITE are metered on the command's slot (R366). A contribution issued
to the own node keeps its result for its MERGE (R150, R152). `kind` is the source kind of that WRITE (Table 11-1). -/
def deliver (src : Src) (kind tag status aux slot : Nat) (res : Bytes) (s : State) : State :=
  match src with
  | .host port _ qp cid addr len =>
    let s1 := if res = [] ∨ len = 0 then s else s.send (.result port addr (res.take len))
    let s2 := postCqe port qp { tag, status, trunc := decide (len < res.length), kind := 0, cid,
                                bytes := res.length, aux } s1
    let q := s2.queue port qp
    settleDisable port qp (s2.setQueue port qp { q with inflight := q.inflight.erase cid })
  | .pft conn msg rkey off =>
    meter slot 4 res.length
      (returnBuffer conn msg status (sendMessage conn (keeperMsg 2 true false kind res rkey off) s))
  | .own req idx =>
    { s with reqs := Map.adjust s.reqs req fun r =>
        { r with contribs := r.contribs.modify idx fun c => { c with got := some res } } }
  | .keeper => s

/-! ## Results and commits -/

/-- A 32-byte result block of a command that is not a QUERY: REQ_ID, STATUS, HANDLE, AUX0, AUX1 (R81, Table 5-3). -/
def resultBlock (reqId status handle aux0 aux1 : Nat) : Bytes :=
  toLE 8 reqId ++ BitVec.ofNat 8 status :: zeros 7 ++ toLE 8 handle ++ toLE 4 aux0 ++ toLE 4 aux1

/-- Enters a commit in the completed-request record (R159, R163). -/
def recordDone (reqId master status : Nat) (s : State) : State :=
  { s with done := ((reqId, master, status) :: s.done).take 65536 }

/-- Commits a command that took no request entry, with a result of the common form (R159). -/
def finish (src : Src) (reqId : Nat) (st : Status) (s : State) (handle : Nat := 0) (aux0 aux1 : Nat := 0) (kind : Nat := 1)
    (slot : Nat := 16) : State :=
  deliver src kind reqId st.code 0 slot (resultBlock reqId st.code handle aux0 aux1)
    (recordDone reqId (s.masterOf src) st.code s)

/-- Refuses a command for want of a right: DENIED, counted (R318). -/
def finishDenied (src : Src) (reqId target : Nat) (s : State) : State :=
  finish src reqId .denied (deny (s.masterOf src) target s)

/-- The outcome of a command that the block executes. -/
def ok (s : State) : Host.Outcome State Fault Refusal := .next s

end Sys2Proof.Machine
end

