-- ==== Sys2Proof/Machine/Store.lean ====
section
/-! DEFINITION. What the node stores: partitions, conversations, streams, pages and their HBM (R33 to R56), profile versions
(R100), compositions and stubs (R360 to R364), request entries (R162, R321) and the checks that every command shares. -/
namespace Sys2Proof.Machine

/-! ## Handles -/

/-- Fields of a conversation handle (Table 2-2). -/
def hTenant (h : Nat) : Nat := bitsOf h 52 12
def hOrigin (h : Nat) : Nat := bitsOf h 40 12
def hLocal (h : Nat) : Nat := bitsOf h 12 28
def hGen (h : Nat) : Nat := bitsOf h 0 12

/-- A conversation handle of this node. -/
def mkConv (tenant origin slot gen : Nat) : Nat := tenant * 2 ^ 52 + origin * 2 ^ 40 + slot * 2 ^ 12 + gen

/-- Whether a handle asks for a new conversation (R38). -/
def isCreate (h : Nat) : Bool := decide (h % 2 ^ 52 = 0)

/-- A page or mask object handle (Table 2-4). -/
def mkPage (tenant origin serial : Nat) : Nat := tenant * 2 ^ 52 + origin * 2 ^ 40 + serial

/-- The key of a layer stream. -/
def streamKey (conv layer : Nat) : Nat := conv * 256 + layer

/-! ## Partitions -/

/-- The partition of a tenant on this node, ACTIVE or DELETING (R33). -/
def State.tenantPart (s : State) (tenant : Nat) : Option Nat :=
  (List.find? (fun kv => kv.2.tenant == tenant) s.parts).map (·.1)

/-- Whether a partition is ACTIVE. -/
def State.partActive (s : State) (p : Nat) : Bool :=
  match Map.find? s.parts p with | some x => x.state == .active | none => false

/-- The partition whose record is `p`. -/
def State.part? (s : State) (p : Nat) : Option Partition := Map.find? s.parts p

/-- Changes a partition. -/
def State.updPart (s : State) (p : Nat) (f : Partition → Partition) : State := { s with parts := Map.adjust s.parts p f }

/-- Whether a partition's key slot holds a key (R302, R305). A lost root counter makes it as EMPTY (Table 14-1). -/
def State.keyed (s : State) (p : Nat) : Bool := Map.has s.sec.keys p && !s.sec.rootLost.contains p

/-- Writes the metadata block of a partition that holds a page list (0), a conversation's entry (1), a lend record (2) or a mask object's
write count (3): its version rises, and with the version block that holds the version the block's root counter (R310). -/
def writeMeta (part kind key : Nat) (s : State) : State :=
  let b := Config.metaBlock part kind key
  let up (m : Map Nat) (k : Nat) : Map Nat := Map.insert m (part * 2 ^ 40 + k) ((Map.getD m (part * 2 ^ 40 + k) 0 + 1) % 2 ^ 64)
  { s with sec := { s.sec with versions := up s.sec.versions b, roots := up s.sec.roots (b / 128) } }

/-- PART_MODE as GLB shows it (Table 18-4). -/
def Partition.mode (p : Partition) : Nat :=
  (if p.flagged then 1 else 0) + (if p.strict then 2 else 0) + 4 * p.mirror + 16 * p.km1 + (if p.promote then 256 else 0)

/-! ## HBM -/

/-- 4 KiB blocks a page holds in HBM: its stored form, its tail and its reservation (R48). -/
def Page.hbmBlocks (p : Page) : Nat := p.blocks + p.tailBlocks + p.rsvBlocks

/-- Blocks allocated to a partition in a region. -/
def State.partBlocks (s : State) (part region : Nat) : Nat :=
  s.pages.foldl (fun n kv => if kv.2.part = part ∧ kv.2.region = region then n + kv.2.hbmBlocks else n) 0

/-- Blocks allocated in a region, to every partition. -/
def State.regionBlocks (s : State) (region : Nat) : Nat :=
  s.pages.foldl (fun n kv => if kv.2.region = region then n + kv.2.hbmBlocks else n) 0

/-- A region as first made. -/
def Region.initial : Region :=
  { retired := false, aesActive := 0, aesSpare := true, groups := [], rsv := [], lostBlocks := 0,
    arb := { frame := 64, slotNs := 50, cur := 0, since := 0, waiting := [], turn := 0, left := 0 } }

/-- A region. -/
def State.region (s : State) (r : Nat) : Region := Map.getD s.regions r .initial

/-- Changes a region. -/
def State.updRegion (s : State) (r : Nat) (f : Region → Region) : State :=
  { s with regions := Map.insert s.regions r (f (s.region r)) }

/-- An HBM row by its stack, its pseudo-channel and its number. -/
def rowKey (stack channel row : Nat) : Nat := (stack * 32 + channel % 32) * 2 ^ 32 + row % 2 ^ 32

/-- The stack of a row, and the region that its half serves: half 0 is pseudo-channels 0 to 15, half 1 the others (R25). -/
def rowStack (k : Nat) : Nat := k / 2 ^ 37
def rowRegion (k : Nat) : Nat := k / 2 ^ 36

/-- MiB of the page pool of a region (Table 2-7): 10,999 with the profile store at 8 GiB. -/
def State.poolMib (s : State) : Nat := 10999 + 64 * (8 - s.prof.storeGib)

/-- Blocks of a region's page pool still free, rows retired from it aside (R335). -/
def State.poolFree (s : State) (r : Nat) : Nat :=
  s.poolMib * 256 - (s.region r).lostBlocks - s.regionBlocks r

/-- Blocks of a partition's share in one region (R35): 16 MiB a unit. -/
def shareBlocks (units : Nat) : Nat := units * 4096

/-- Free HBM of a partition in a region, in blocks. -/
def State.partFree (s : State) (part region : Nat) : Nat :=
  if (s.region region).retired then 0
  else match s.part? part with
    | some p => min (shareBlocks p.units - s.partBlocks part region) (s.poolFree region)
    | none => 0

/-- The region of R28: the most free HBM within the share, the lowest-numbered on a tie. -/
def State.bestRegion (s : State) (part : Nat) : Nat :=
  (List.range 16).foldl (fun b r => if s.partFree part b < s.partFree part r then r else b) 0

/-- Share units that no partition reserves (Table 18-4, FREE_UNITS). -/
def State.freeUnits (s : State) : Nat :=
  s.poolMib / 16 - s.parts.foldl (fun n kv => n + kv.2.units) 0

/-! ## Profiles -/

/-- The resident version of a profile ID (R110): its slot. -/
def State.resident (s : State) (id : Nat) : Option (Nat × ProfSlot) :=
  List.find? (fun kv => kv.2.id == id && kv.2.st == 2) s.prof.slots

/-- The slot of a version (resident or draining). -/
def State.versionSlot (s : State) (id ver : Nat) : Option (Nat × ProfSlot) :=
  List.find? (fun kv => kv.2.id == id && kv.2.ver == ver && kv.2.st != 1) s.prof.slots

/-- The image a request or page computes with: the named version, else the resident one, else nothing. -/
def State.image (s : State) (id ver : Nat) : Bytes :=
  match s.versionSlot id ver with
  | some (_, p) => p.img
  | none => match s.resident id with | some (_, p) => p.img | none => []

/-! ## Conversations, streams and pages -/

/-- A conversation held on the node and reachable (R444, R40, R41): its partition is ACTIVE and it is not deleted. A mirror
copy is held too, read-only (R350). -/
def State.heldConv (s : State) (h : Nat) : Option Conv :=
  match Map.find? s.convs h with
  | some c => if c.deleting ∨ !s.partActive c.part then none else some c
  | none => none

/-- Whether a layer lies outside the layers of a conversation's profile (R42, log entry 121). -/
def State.outside (s : State) (c : Conv) (layer : Nat) : Bool :=
  match s.resident c.profile with
  | some (_, x) => decide ((Geo.ofImage x.img).layers ≤ layer)
  | none => false

/-- Whether a conversation is a mirror copy that no PROMOTE has made writable (R350). -/
def Conv.readOnly (c : Conv) : Bool := c.primaryNode.isSome

/-- A layer stream as first made (R192: HOT). -/
def Stream.initial (fmt evar : Nat) : Stream :=
  { next := 0, retained := false, mirror := 0, k := 1, fmt, evar, flag := 0, buoy := 0, batch := 0, appliedBatch := 0,
    mstate := 0, batchFrom := none, sent := 0, home := none, entries := [] }

/-- A layer stream, if it has been opened. -/
def State.stream? (s : State) (conv layer : Nat) : Option Stream := Map.find? s.streams (streamKey conv layer)

/-- Changes a layer stream. -/
def State.updStream (s : State) (conv layer : Nat) (f : Stream → Stream) : State :=
  { s with streams := Map.adjust s.streams (streamKey conv layer) f }

/-- Replaces a layer stream. -/
def State.putStream (s : State) (conv layer : Nat) (x : Stream) : State :=
  { s with streams := Map.insert s.streams (streamKey conv layer) x }

/-- Changes a page. -/
def State.updPage (s : State) (h : Nat) (f : Page → Page) : State := { s with pages := Map.adjust s.pages h f }

/-- Replaces a page. -/
def State.putPage (s : State) (h : Nat) (p : Page) : State := { s with pages := Map.insert s.pages h p }

/-- The page at a page-list entry of a stream. -/
def State.pageAt (s : State) (conv layer entry : Nat) : Option (Nat × Page) :=
  (s.stream? conv layer).bind fun st => (Map.find? st.entries entry).bind fun h =>
    (Map.find? s.pages h).map fun p => (h, p)

/-- A page opened at a page-list entry (R28, R47, R48, R52). -/
def Page.opening (part conv layer entry region slot profile version : Nat) (st : Stream) (g : Geo) (img : Bytes)
    (sr refill : Bool) : Page :=
  { part, conv, layer, entry, state := .opened, tier := 0, region, lastRegion := region, retained := st.retained, pgen := 0,
    shares := 1, slot, profile, version, fmt := st.fmt, evar := st.evar, hold := g.hold, sr, rows := [], tail := [],
    params := if g.hold then [] else if st.fmt = 0xE then arrivalParams g img layer else [], fill := 0, sealing := false,
    refill, sealTime := 0, age := 0, sketch := [], sketchHeld := false,
    blocks := if g.hold then 0 else blocksOf (storedBytes g st.fmt), tailBlocks := if g.hold then blocksOf (tailBytes g) else 0,
    rsvBlocks := if g.hold then blocksOf (storedBytes g st.fmt) else 0, heldHot := false, shadow := none, loc := none,
    lend := none, dest := 0, srcTier := 0, srcHeld := false,
    srcReaders := [], durable := false, promoTime := 0, holders := 0, readers := [], mirrored := false,
    restoring := false, lost := false, lostFrom := 0, target := none }

/-- Blocks a page opened under a profile takes at once (R48). -/
def openBlocks (g : Geo) (fmt : Nat) : Nat :=
  (if g.hold then blocksOf (tailBytes g) else 0) + blocksOf (storedBytes g fmt)

/-- A page's state code (Table 2-3). -/
def PgState.code : PgState → Nat
  | .opened => 0
  | .sealed => 1
  | .migrating => 2
  | .lent => 3
  | .absent => 4

/-- The page that a PTR of a partition's directory entries names: TENANT and ORIGIN are the partition's (Table 13-2), so that a mirror copy
of equal serial is never meant. Where the node has issued no page of that serial, it is a page of another ORIGIN that PROMOTE has made
this node's own (DESIGN CHOICE, log entry 138). -/
def State.pageBySerial (s : State) (part serial : Nat) : Option (Nat × Page) :=
  let own := match s.part? part with | some x => mkPage x.tenant s.nodeId serial | none => 0
  let copy (p : Page) : Bool := match Map.find? s.convs p.conv with | some c => c.primaryNode.isSome | none => false
  match Map.find? s.pages own with
  | some p => if p.part = part then some (own, p) else none
  | none => List.find? (fun kv => kv.2.part == part && kv.1 % 2 ^ 40 == serial && !copy kv.2) s.pages

/-- Whether the directory entries of a partition with a PTR name a page. -/
def State.dirNames (s : State) (part ptr h : Nat) : Bool :=
  match s.pageBySerial part ptr with | some (g, _) => g == h | none => false

/-- Whether a page is entered in the prefix directory. -/
def State.inDirectory (s : State) (part h : Nat) : Bool :=
  s.mex.dir.any fun kv => kv.2.part == part && kv.2.ptr == h % 2 ^ 40 && s.dirNames part kv.2.ptr h

/-- Streams that reference a page: an attach of it twice into one stream counts once. -/
def State.referrers (s : State) (h : Nat) : Nat := Map.count s.streams fun st => (Map.vals st.entries).contains h

/-- The 16-byte descriptor of a page (Table 2-3). A page whose refill is not complete reads as OPEN (R52). -/
def State.descriptor (s : State) (h : Nat) (p : Page) : Bytes :=
  let shared := decide (1 < s.referrers h) || s.inDirectory p.part h
  toLE 8 h ++ toLE 8 (p.state.code + p.tier * 8 + (if p.tier = 0 then p.region else 0) * 32 + p.fill * 512
    + (if p.retained then 2 ^ 18 else 0) + (if shared then 2 ^ 19 else 0) + p.pgen * 2 ^ 20 + p.shares * 2 ^ 36)

/-- Frees the HBM of a page. -/
def Page.freeHbm (p : Page) : Page := { p with blocks := 0, tailBlocks := 0, rsvBlocks := 0 }

/-! ## Serials -/

/-- Serials left in a partition's 40-bit space (R46); serial zero is never issued (R166). -/
def serialsLeft (p : Partition) : Nat := 2 ^ 40 - p.nextSerial

/-- Takes the next serial of a partition, with the records of R46. -/
def takeSerial (part : Nat) (s : State) : Nat × State :=
  match s.part? part with
  | none => (0, s)
  | some p =>
    let left := serialsLeft p - 1
    let low := decide (left ≤ 2 ^ 32) && !p.serialsLow
    let out := decide (left = 0) && !p.serialsOut
    let s1 := s.updPart part fun x =>
      { x with nextSerial := x.nextSerial + 1, serialsLow := x.serialsLow || low, serialsOut := x.serialsOut || out }
    let s2 := if low then raise (eventFor (some part) 2 4 0x0400 pgGlb left) s1 else s1
    (p.nextSerial, if out then raise (eventFor (some part) 3 4 0x0401 pgGlb) s2 else s2)

/-! ## Compositions -/

/-- The VALID slot of a composition ID (R360). -/
def State.compSlot (s : State) (comp : Nat) : Option Nat :=
  (List.range 16).find? fun k => s.field pgCmp 0x05C 0 1 k == 1 && s.reg pgCmp 0x054 k == comp

/-- The metering slot a command is charged to (R367). -/
def State.chargeSlot (s : State) (comp : Nat) : Nat := if comp = 0 then 16 else (s.compSlot comp).getD 16

/-- This node's epoch for a composition, 0 where none (R362). -/
def State.epochOf (s : State) (comp : Nat) : Nat :=
  match s.compSlot comp with | some k => s.reg pgCmp 0x058 k | none => 0

/-- The stub of a conversation (R364). -/
def State.stub? (s : State) (conv : Nat) : Option Stub := s.cmp.stubs.find? fun x => x.conv == conv

/-- What check 3 of a command decides (Table 15-3). -/
inductive CompCheck where
  | pass (ahead : Bool)
  | invalid
  | stale
  | redirect
  | forward (node : Nat)
deriving DecidableEq, Repr

/-- Table 15-3. `held` says whether the object is held here and `object` names the conversation a stub may know; a command
that names no object passes after rows 1 and 2 (R361). -/
def State.compCheck (s : State) (comp epoch : Nat) (object : Option Nat) (held : Bool) : CompCheck :=
  if comp = 0 ∧ (s.field pgCmp 0x044 0 1 = 1 ∨ epoch ≠ 0) then .invalid
  else if comp ≠ 0 ∧ (s.compSlot comp).isNone then .stale
  else
    let mine := s.epochOf comp
    match object with
    | none => .pass false
    | some h =>
      if held then .pass (newer 32 epoch mine)
      else match s.stub? h with
        | some st => if older 32 epoch mine then .forward st.node else .redirect
        | none => if older 32 epoch mine then .redirect else .pass false

/-- What a request carries of its routing, with the stub node for AUX1 (R362). -/
def State.stubNode (s : State) (object : Option Nat) : Nat :=
  match object.bind s.stub? with | some st => st.node | none => 0xFFFFFFFF

/-- Counts a REDIRECT or STALE_EPOCH answer (R362). -/
def countComp (st : Status) (s : State) : State :=
  if st = .redirect then setCause pgCmp 2 (s.bump pgCmp 0x088)
  else if st = .staleEpoch then s.bump pgCmp 0x090
  else s

/-- Counts a request with a newer epoch (Table 15-3 row 3). -/
def countAhead (ahead : Bool) (s : State) : State := if ahead then setCause pgCmp 1 (s.bump pgCmp 0x094) else s

/-! ## Authority -/

/-- The master a command that names a tenant's object is checked as: on a Keeper connection, master 0x100 + i of the
tenant's own partition (R243, R363). -/
def State.objectMaster (s : State) (src : Src) (tenant : Nat) : Nat :=
  match src with
  | .pft conn _ _ _ =>
    match Map.find? s.pft.conns conn with
    | some c => if c.keeper then (match s.tenantPart tenant with | some p => 0x100 + p | none => 0x080) else 0x100 + c.part
    | none => 0x080
  | _ => s.masterOf src

/-- The partition that master stands for. -/
def State.objectPart (s : State) (src : Src) (tenant : Nat) : Option Nat :=
  match src with
  | .pft conn _ _ _ =>
    match Map.find? s.pft.conns conn with
    | some c => if c.keeper then s.tenantPart tenant else some c.part
    | none => none
  | _ => s.srcPart src

/-- Check 2 of a command (R34, R318): the partition of the handle's tenant, when the master holds the right `need` on it; on
another tenant's handle than its own partition's, ADMIN. A master whose partition is being deleted is refused (R418). -/
def State.authorise (s : State) (src : Src) (tenant need : Nat) : Option Nat :=
  match s.tenantPart tenant with
  | none => none
  | some p =>
    let own := s.objectPart src tenant
    let alive : Bool := match own with | some q => s.partActive q || !Map.has s.parts q | none => true
    let need' := if own = some p then need else 3
    if alive ∧ need' ≤ s.right (s.objectMaster src tenant) (partTarget p) then some p else none

/-- The target a refusal at check 2 records: the tenant's partition, or partition 0's where the tenant has none. -/
def State.tenantTarget (s : State) (tenant : Nat) : Nat := partTarget ((s.tenantPart tenant).getD 0)

/-! ## Request entries -/

/-- Request entries reserved to STRICT partitions (Table 18-4). -/
def State.strictRsv (s : State) : Nat := s.parts.foldl (fun n kv => if kv.2.strict then n + kv.2.rsv else n) 0

/-- Request entries in use (GLB_REQ). -/
def State.entriesUsed (s : State) : Nat := Map.count s.reqs fun r => r.entryUsed

/-- Whether a partition is STRICT. -/
def State.strict (s : State) (p : Nat) : Bool := match s.part? p with | some x => x.strict | none => false

/-- Check 9 (R162, R321): a STRICT partition counts only the entries reserved to it, the others share the rest. -/
def State.entryFree (s : State) (part : Option Nat) : Bool :=
  let mine (q : Nat) : Bool := match part with | some p => q == p | none => false
  match part.bind s.part? with
  | some x =>
    if x.strict then
      decide (Map.count s.reqs (fun r => r.entryUsed && (match r.part with | some q => mine q | none => false)) < x.rsv)
    else decide (Map.count s.reqs (fun r => r.entryUsed && !(match r.part with | some q => s.strict q | none => false))
      < 16384 - s.strictRsv)
  | none => decide (Map.count s.reqs (fun r => r.entryUsed && !(match r.part with | some q => s.strict q | none => false))
      < 16384 - s.strictRsv)

/-- Whether a request of the same master with the same REQ_ID is in flight (R162): one keeps its entry until its completion is
written. -/
def State.duplicate (s : State) (master reqId : Nat) : Bool :=
  s.reqs.any fun kv => kv.2.entryUsed && kv.2.master == master && kv.2.id == reqId

/-- A request entry before a command fills it. -/
def Req.initial (kind : ReqKind) (id : Nat) (src : Src) (master : Nat) (part : Option Nat) (slot : Nat) (blk : Bytes) : Req :=
  { kind, id, src, master, part, slot, entryUsed := true, deadline := none, status := none, blk, conv := 0, layer := 0,
    profile := 0, version := 0, items := [], scanned := true, behind := [], bounds := [], accs := [], seen := [], combined := [],
    arrived := [], pagesOmitted := 0, aux0 := 0, aux1 := F32.negInf, capped := false, gathered := false, firstSlot := 0,
    nextSlot := 0, sealCount := 0, created := false, waits := [], contribs := [], heads := 0, dv := 0, tokens := 0, mergeRegion := 0,
    mergePods := [], lastNode := 0, flags := 0, pagesAttended := 0, res := [] }

/-- Whether a request is bound to a profile version (R61, R100): a QUERY, an APPEND, and a MERGE that applies FINAL stages. -/
def Req.bound (r : Req) : Bool := r.kind == .query || r.kind == .append || (r.kind == .merge && bitOf (leAt r.blk 8 4) 10)

/-- Accepted requests bound to a version and not complete. -/
def State.boundTo (s : State) (id ver : Nat) : Nat := Map.count s.reqs fun r => r.bound && r.profile == id && r.version == ver

/-- Enters a request (R162). Entries are numbered in acceptance order. -/
def addReq (r : Req) (s : State) : Nat × State :=
  (s.nextReq, holdCid r.src { s with reqs := Map.insert s.reqs s.nextReq r, nextReq := s.nextReq + 1 })

/-- Changes a request entry. -/
def State.updReq (s : State) (i : Nat) (f : Req → Req) : State := { s with reqs := Map.adjust s.reqs i f }

/-- The source kind of a command's result (Table 11-1): MERGE contributions and results 2, LEND, FETCH and RECLAIM 4, else 1. -/
def resultKind (k : ReqKind) : Nat :=
  match k with
  | .merge => 2
  | .lend => 4
  | .fetch => 4
  | .reclaim => 4
  | _ => 1

end Sys2Proof.Machine
end

