-- ==== Sys2Proof/Machine/Arbiter.lean ====
section
/-! DEFINITION. Arbitration by the local clock: the region arbiters (R19, R402) and the virtual channels of the die-to-die links (R20,
R21). Commands take no time (log entry 2), so an access or a transfer is noted here when its command runs, and is granted as the clock
goes on; no result depends on when (log entry 151). -/
namespace Sys2Proof.Machine

/-! ## Die-to-die links (R20, R21) -/

/-- A link as it stands at reset. -/
def Link.initial : Link := { waiting := [], flying := [], turn := 0, left := 0 }
def State.link (s : State) (die : Nat) : Link := Map.getD s.links die .initial

/-- Payload bits of a 288/256 word, in bytes (R20). -/
def wordPayload : Nat := 32

/-- A transfer across a die's link (R20): its payload bytes are counted in the direction they go, and its words wait on a virtual
channel. A link that is not up carries nothing. -/
def crossDie (die vc : Nat) (out : Bool) (bytes : Nat) (s : State) : State :=
  if s.field (pgDie die) 0x044 0 1 = 0 ∨ bytes = 0 then s
  else
    let l := s.link die
    let n := Map.getD l.waiting vc 0 + ceilDiv bytes wordPayload
    countUp (pgDie die) (if out then 0x060 else 0x068) bytes
      { s with links := Map.insert s.links die { l with waiting := Map.insert l.waiting vc n } }

/-- The die on which a page's block lies; none for blocks of the I/O die (R25). -/
def dieOf (page : Nat) : Option Nat :=
  match blockOf page with
  | some .pod => some ((page - 0x100) / 28 / 4)
  | some .regn => some ((page - 0x300) / 4)
  | some .die => some (page - 0x310)
  | some .hbm => some ((page - 0x320) / 2)
  | _ => none

/-- A register access of 4 bytes crosses the link on VC0 where the page lies on a die (R21). -/
def crossRegister (page : Nat) (out : Bool) (s : State) : State :=
  match dieOf page with
  | some d => crossDie d 0 out 4 s
  | none => s

/-- Words a virtual channel may still send: its credits, less the words whose credits have not come back. VC0's are reserved to it. -/
def Link.credit (l : Link) (vc : Nat) : Nat := Config.vcCredits vc + 1 - Map.getD l.flying vc 0

/-- Whether a virtual channel has a word to send and a credit for it. -/
def Link.ready (l : Link) (vc : Nat) : Bool := decide (0 < Map.getD l.waiting vc 0 ∧ 0 < l.credit vc)

/-- The channel that sends next: VC0 by strict priority, the others by weighted round-robin. -/
def Link.next (l : Link) (weight : Nat → Nat) : Option (Nat × Nat) :=
  if l.ready 0 then some (0, l.left)
  else if 0 < l.left ∧ l.ready l.turn then some (l.turn, l.left - 1)
  else (((List.range 3).map fun k => (l.turn + k) % 3 + 1).find? l.ready).map fun v => (v, weight v - 1)

/-- One word leaves a link; the words that flew before have been checked at the other side, and their credits are back. -/
def linkTick (die : Nat) (s : State) : State :=
  match Map.find? s.links die with
  | none => s
  | some l0 =>
    let l : Link := { l0 with flying := [] }
    match l.next fun v => s.field (pgDie die) 0x040 (8 * (v - 1)) 4 with
    | none => { s with links := Map.insert s.links die l }
    | some (v, left) =>
      let rest := Map.put l.waiting v (Map.getD l.waiting v 0 - 1) 0
      let l1 : Link := { waiting := rest, flying := [(v, 1)], turn := if v = 0 then l.turn else v, left }
      { s with links := Map.insert s.links die l1 }

/-! ## Region arbiters (R19, R402) -/

/-- The holder key of accesses made for no partition. -/
def noHolder : Nat := 256

/-- Bytes of a region's HBM are read or written by an access made for a partition: they are counted, and the access waits for a slot. -/
def hbmAccess (region part : Nat) (read : Bool) (bytes : Nat) (s : State) : State :=
  let note (a : Arb) : Arb := { a with waiting := Map.insert a.waiting part (Map.getD a.waiting part 0 + 1) }
  countUp (pgRegn region) (if read then 0x090 else 0x098) bytes (s.updRegion region fun r => { r with arb := note r.arb })

/-- Tier movement of a page's bytes out of HBM or into it: an access made for its partition (R402), and a transfer on VC3 (R21). -/
def tierAccess (p : Page) (read : Bool) (bytes : Nat) (s : State) : State :=
  crossDie (p.region / 4) 3 read bytes (hbmAccess p.region p.part read bytes s)

/-- Mirrored bytes of a page leave its HBM or come into it: an access made for its partition, and a transfer on VC2 (R21, R345). -/
def mirrorAccess (p : Page) (read : Bool) (bytes : Nat) (s : State) : State :=
  if bytes = 0 then s else crossDie (p.region / 4) 2 read bytes (hbmAccess p.region p.part read bytes s)

/-- The STRICT partition that holds a slot of a region's frame. -/
def Region.holder (r : Region) (slot : Nat) : Option Nat :=
  (List.find? (fun kv => decide (kv.2.first ≤ slot ∧ slot < kv.2.first + kv.2.count)) r.rsv).map (·.1)

/-- The partition that a free slot goes to and the free slots left to it: the SHARED partition whose turn it is, for as many free slots as
its weight says, then the next in cyclic order with accesses pending; an access for no partition comes behind them. -/
def Arb.share (a : Arb) (shared : Nat → Bool) (weight : Nat → Nat) : Option (Nat × Nat) :=
  let cands := (Map.keys a.waiting).filter fun p => decide (p < noHolder) && shared p
  if 0 < a.left ∧ cands.contains a.turn then some (a.turn, a.left - 1)
  else match (cands.find? fun p => decide (a.turn < p)).orElse fun _ => cands.head? with
    | some p => some (p, weight p - 1)
    | none => if Map.has a.waiting noHolder then some (noHolder, 0) else none

/-- The accesses of a holder that one slot serves are granted. -/
def Arb.serve (a : Arb) (p : Nat) : Arb :=
  { a with waiting := Map.put a.waiting p (Map.getD a.waiting p 0 - (Config.slotAccesses a.slotNs + 1)) 0 }

/-- The next slot of a region's frame begins at the clock's time: at a frame's start a write to REGN_ARB takes effect (R422); a held slot
serves its holder alone and else stays idle, which is counted; a free one goes round the SHARED partitions. -/
def nextSlot (region : Nat) (s : State) : State :=
  let r := s.region region
  let a := r.arb
  let cur := if a.cur + 1 < a.frame then a.cur + 1 else 0
  let a1 : Arb := if cur = 0 then
      { a with cur, since := s.time, frame := s.field (pgRegn region) 0x040 0 9, slotNs := 10 * s.field (pgRegn region) 0x040 16 7 }
    else { a with cur, since := s.time }
  let put (b : Arb) : State := s.updRegion region fun x => { x with arb := b }
  match r.holder cur with
  | some p => if Map.has a1.waiting p then put (a1.serve p) else countUp (pgRegn region) 0x088 1 (put a1)
  | none =>
    match a1.share (fun p => !s.strict p) (fun p => s.field (pgRegn region) 0x048 0 8 p) with
    | some (p, left) => put ({ a1 with turn := if p = noHolder then a1.turn else p, left }.serve p)
    | none => put a1

/-- What the clock does in one nanosecond: slots that end are followed by the next, and each link sends a word. -/
def clockTick (s : State) : State :=
  let due (t : State) (r : Nat) : Bool :=
    !(t.region r).retired && decide ((t.region r).arb.since + (t.region r).arb.slotNs ≤ t.time)
  let s1 := (List.range 16).foldl (fun t r => if due t r then nextSlot r t else t) s
  (List.range 4).foldl (fun t d => linkTick d t) s1

end Sys2Proof.Machine
end

