-- ==== Sys2Proof/Machine/Medium.lean ====
section
/-! DEFINITION. The NAND medium (R208 to R220): the board's parameter page, geometry and physical unit numbers, blocks and what is
programmed into them, the journal, the segment directory and the two levels that cache map segments. -/
namespace Sys2Proof.Machine

/-! ## The board's NAND (R208, R209, R235) -/

/-- One step of the CRC of an ONFI parameter page: x^16 + x^15 + x^2 + 1, most significant bit first (PRESUMED, log entry 143). -/
def onfiStep (crc : Nat) : Nat :=
  if 0x8000 ≤ crc then ((crc * 2) ^^^ 0x8005) % 0x10000 else crc * 2

/-- The CRC of an ONFI parameter page's first 254 bytes, from 0x4F4E (PRESUMED, log entry 143). -/
def onfiCrc (b : Bytes) : Nat :=
  (List.range 254).foldl (fun c k => (List.range 8).foldl (fun x _ => onfiStep x) (c ^^^ (byteAt b k * 256))) 0x4F4E

/-- Whether a copy of the parameter page checks. -/
def onfiGood (b : Bytes) : Bool := b.length == 256 && onfiCrc b == leAt b 254 2

/-- What FLM_GEOM0 and FLM_GEOM1 hold. -/
structure Geometry where
  ces : Nat
  luns : Nat
  planes : Nat
  cell : Nat
  blocksPerLun : Nat
  pagesPerBlock : Nat
deriving DecidableEq, Repr

/-- The geometry that a parameter page gives a board with `ces` chip enables on each channel; none where Table 9-1 or R214 does not
support it. The page's layout is ONFI's (PRESUMED, log entry 143). -/
def Geometry.ofParam (ces : Nat) (b : Bytes) : Option Geometry :=
  let g : Geometry :=
    { ces, luns := byteAt b 100, planes := 2 ^ (byteAt b 113 % 16), cell := byteAt b 102 - 2, blocksPerLun := leAt b 96 4,
      pagesPerBlock := leAt b 92 4 }
  let supported := decide (1 ≤ ces ∧ ces ≤ 8 ∧ 1 ≤ g.luns ∧ g.luns ≤ 4 ∧ g.planes ≤ 4 ∧ 1 ≤ g.cell ∧ g.cell ≤ 2)
    && decide (leAt b 80 4 = 16384 ∧ 2112 ≤ leAt b 84 2 ∧ 1 ≤ g.blocksPerLun ∧ g.blocksPerLun < 65536 ∧ 1 ≤ g.pagesPerBlock)
    && decide (g.pagesPerBlock < 65536 ∧ g.luns * g.blocksPerLun * g.pagesPerBlock ≤ 2 ^ 23)
  if supported then some g else none

/-- The parameter page read at power-on: the first copy whose CRC checks is used (Table 9-1). -/
def Geometry.ofBoard (ces : Nat) (copies : List Bytes) : Option Geometry :=
  (copies.find? onfiGood).bind (Geometry.ofParam ces)

/-! ## Geometry (R214, R215, R227) -/

/-- Whether the controller serves: mounted and not OFFLINE. -/
def Flash.serving (f : Flash) : Bool := f.st != 0 && !f.mounting

/-- Bytes of a map unit (R210). -/
def unitSize : Nat := 16384

/-- Blocks of a target. -/
def Flash.targetBlocks (f : Flash) : Nat := f.luns * f.blocksPerLun

/-- Raw units of the node: those of the blocks that were good at the last format. -/
def Flash.rawUnits (f : Flash) : Nat := (16 * f.ces * f.targetBlocks - f.badAtFormat) * f.pagesPerBlock

/-- Logical units (R215). -/
def Flash.capacity (f : Flash) : Nat := f.rawUnits * (100 - f.opPct) / 100 - f.rawUnits / 4096

/-- Logical units not given out. -/
def Flash.freeUnits (f : Flash) : Nat := f.capacity - f.placed.length

/-- Reserve blocks of each target (R227): 1.5 % of its blocks, rounded up. -/
def Flash.reserve (f : Flash) : Nat := ceilDiv (15 * f.targetBlocks) 1000

/-- A block as a format leaves it. -/
def Block.initial : Block :=
  { erases := 0, valid := 0, written := 0, reads := 0, next := 0, free := true, openB := false, bad := false, refresh := false,
    retire := false, erasing := false, isMap := false, readers := [], movers := [] }

/-- A block: channel + 16 × chip enable + 128 × block within the target. -/
def Flash.block (f : Flash) (b : Nat) : Block := Map.getD f.blocks b .initial

/-- Changes a block. -/
def Flash.updBlock (f : Flash) (b : Nat) (g : Block → Block) : Flash :=
  { f with blocks := Map.insert f.blocks b (g (f.block b)) }

/-- A block's channel and target (channel × 8 + chip enable). -/
def blockChannel (b : Nat) : Nat := b % 16
def blockTarget (b : Nat) : Nat := b % 16 * 8 + b / 16 % 8

/-- Whether the board has a block of that number. -/
def Flash.hasBlock (f : Flash) (b : Nat) : Bool := decide (b / 16 % 8 < f.ces ∧ b / 128 < f.targetBlocks)

/-- The PUN of a page of a block (R214). -/
def punOf (f : Flash) (b page : Nat) : Nat := b % 128 + 128 * (b / 128 * f.pagesPerBlock + page)

/-- The block of a PUN. -/
def blockOfPun (f : Flash) (pun : Nat) : Nat := pun % 128 + 128 * (pun / 128 / max 1 f.pagesPerBlock)

/-- Blocks of a channel that hold nothing and may be opened: all its blocks less those in use or bad and less the
reserves. -/
def Flash.channelFree (f : Flash) (ch : Nat) : Nat :=
  let used := (f.blocks.filter fun kv => blockChannel kv.1 == ch && (!kv.2.free || kv.2.bad)).length
  let rsv := (List.range f.ces).foldl (fun n ce => n + (f.reserve - Map.getD f.reserveUsed (ch * 8 + ce) 0)) 0
  f.ces * f.targetBlocks - used - rsv

/-- The lowest-numbered free block of a channel (log entry 25). -/
def Flash.freeBlock (f : Flash) (ch : Nat) : Option Nat :=
  if f.channelFree ch = 0 then none
  else ((List.range ((f.blocks.length + 1) * 8)).map fun k => ch + 16 * k).find? fun b =>
    f.hasBlock b && (f.block b).free && !(f.block b).bad

/-! ## The journal (R220) -/

/-- Records of a journal page. -/
def journalPage : Nat := 512

/-- Appends a journal record, pending until a JOURNAL_COMMIT (R220). -/
def Flash.journal (f : Flash) (k : JKind) (a b : Nat) (c : Nat := 0) : Flash :=
  { f with jpending := f.jpending ++ [⟨k, a, b, c, f.jseq + 1⟩], jseq := f.jseq + 1 }

/-- Programs the journal pages of the pending records, which are durable then. Every 16,384 records a CKPT follows: the sequence below
which written segments reflect every record, behind which the ring is reused. -/
def Flash.commit (f : Flash) : Flash :=
  let all := f.jdurable ++ f.jpending
  let f1 : Flash := { f with
    jdurable := all, jpending := [], jpages := f.jpages + ceilDiv f.jpending.length journalPage, segDurable := f.segDir }
  if 16384 ≤ f.jseq - f.ckptAt then
    let upto := f.segDirty.foldl (fun m kv => min m kv.2) (f.jseq + 1)
    { f1 with
      jdurable := (all.filter fun r => decide (upto ≤ r.seq)) ++ [⟨.ckpt, upto, 0, 0, f.jseq + 1⟩], jseq := f.jseq + 1,
      ckptAt := f.jseq + 1 }
  else f1

/-! ## Programming (R210, R223) -/

/-- The channel's open block of a kind, with a page left: map segments are written into map blocks (R217), all else into others. -/
def Flash.openBlock (f : Flash) (ch : Nat) (isMap : Bool) : Option Nat :=
  (List.find? (fun kv => blockChannel kv.1 == ch && kv.2.openB && kv.2.isMap == isMap && decide (kv.2.next < f.pagesPerBlock)) f.blocks).map
    (·.1)

/-- Programs the next page of a block: its PUN. The unit's metadata carries its index, its write sequence number and its kind (R210). -/
def Flash.programIn (f : Flash) (b unit : Nat) : Nat × Flash :=
  let n := (f.block b).next
  let pun := punOf f b n
  let g := f.updBlock b fun x =>
    { x with next := n + 1, free := false, openB := decide (n + 1 < f.pagesPerBlock),
             written := if n = 0 then f.jseq + 1 else x.written, reads := if n = 0 then 0 else x.reads }
  (pun, { g with units := Map.insert g.units pun ⟨unit, f.jseq + 1, (f.block b).isMap⟩ })

/-- Programs one unit of a channel in its open block, or in a block it opens: the PUN it got; none without a free block. -/
def Flash.program (f : Flash) (ch : Nat) (isMap : Bool) (unit : Nat) : Option (Nat × Flash) :=
  match f.openBlock ch isMap with
  | some b => some (f.programIn b unit)
  | none => (f.freeBlock ch).map fun b =>
    (f.updBlock b fun x => { x with free := false, openB := true, next := 0, isMap }).programIn b unit

/-! ## Map segments (R217 to R219) -/

/-- Entries of a map segment. -/
def segEntries : Nat := 4096

/-- Segments of the map: an entry for each raw unit (R217). -/
def Flash.segCount (f : Flash) : Nat := ceilDiv f.rawUnits segEntries

/-- The segment directory (R217): the PUN of a segment, in the map blocks that FORMAT wrote until it is first written back. -/
def Flash.segPun (f : Flash) (g : Nat) : Nat :=
  match Map.find? f.segDir g with
  | some p => p
  | none =>
    let n := g / 16
    punOf f ((Map.getD f.mapHome (g % 16) []).getD (n / max 1 f.pagesPerBlock) 0) (n % max 1 f.pagesPerBlock)

/-- Writes a dirty segment to a new place in the map area, append-only, and journals the place (R219). A map block left without a valid
segment waits for its erase. Nothing happens where the channel has no block to open. -/
def Flash.writeSeg (f : Flash) (g : Nat) : Flash :=
  match f.program (g % 16) true g with
  | none => f
  | some (pun, h) =>
    let old := blockOfPun f (f.segPun g)
    let h1 := h.updBlock old fun x => { x with valid := x.valid - 1, erasing := x.erasing || (decide (x.valid ≤ 1) && x.isMap && !x.openB) }
    let h2 := h1.updBlock (blockOfPun f pun) fun x => { x with valid := x.valid + 1, erasing := false }
    { h2 with segDirty := Map.erase h2.segDirty g, segDir := Map.insert h2.segDir g pun }.journal .seg g pun

/-- A level's segments after one is used, most recently used first: where the level is full it replaces its least recently used clean
segment, and where all are dirty it takes no more (R218). -/
def useSeg (cap g : Nat) (dirty : Nat → Bool) (l : List Nat) : List Nat :=
  if l.contains g then g :: l.filter (· != g)
  else if l.length < cap then g :: l
  else match l.reverse.find? fun x => !dirty x with
    | some v => g :: l.filter (· != v)
    | none => l

/-- Looks a segment up in SRAM, then in HBM, then in NAND, which counts a miss (R218). -/
def Flash.lookupSeg (f : Flash) (g : Nat) : Flash :=
  let dirty (x : Nat) : Bool := Map.has f.segDirty x
  if f.segSram.contains g then { f with segSram := useSeg 1728 g dirty f.segSram }
  else
    { f with segSram := useSeg 1728 g dirty f.segSram, segHbm := useSeg 65536 g dirty f.segHbm,
             misses := if f.segHbm.contains g then f.misses else f.misses + 1 }

/-- The first record held that a segment's entries still have to reflect in NAND. -/
def Flash.firstRecord (f : Flash) (g : Nat) : Nat :=
  let touches (r : JRec) : Bool := (r.kind == .map || r.kind == .release) && r.a / segEntries == g
  match (f.jdurable ++ f.jpending).find? touches with | some r => r.seq | none => f.jseq + 1

/-- Marks a segment dirty: at most 4,096 are at once, so that an update of a further one waits until the longest dirty has been written
back (R219). -/
def Flash.dirtySeg (f : Flash) (g : Nat) : Flash :=
  if Map.has f.segDirty g then f
  else
    let oldest := f.segDirty.foldl (fun (b : Option (Nat × Nat)) kv => match b with
      | some x => if kv.2 < x.2 then some kv else b
      | none => some kv) none
    let f1 := if f.segDirty.length < 4096 then f else match oldest with | some x => f.writeSeg x.1 | none => f
    { f1 with segDirty := Map.insert f1.segDirty g (f1.firstRecord g) }

/-- Uses the map entry of a logical unit, and changes it where `dirty` says so. -/
def Flash.touchSeg (f : Flash) (u : Nat) (dirty : Bool) : Flash :=
  let f1 := f.lookupSeg (u / segEntries)
  if dirty then f1.dirtySeg (u / segEntries) else f1

/-- Replaces the flash controller; segments read from NAND meanwhile are counted in FLM_MAP_MISS (R218). -/
def State.setFlash (s : State) (f : Flash) : State :=
  if f.misses = 0 then { s with flash := f }
  else ({ s with flash := { f with misses := 0 } } : State).bump pgFlm 0x0B8 f.misses

end Sys2Proof.Machine
end

