-- ==== Sys2Proof/Machine/Release.lean ====
section
/-! DEFINITION. Giving things back: NAND units (R217, R220), grant space (R201), directory entries (R176), shares and pages
(R50, R55), and the slots of deleted conversations (R39). -/
namespace Sys2Proof.Machine

/-- The tag of a NAND copy: what tells it from the other copy that may lie in a unit of it. -/
def Locator.tag (l : Locator) : Nat := l.unit * 1024 + l.off + 1

/-- A copy leaves a logical unit: with no other there the unit is free, and no packing point stays in it. -/
def Flash.unplace (f : Flash) (tag u : Nat) : Flash :=
  let left := (Map.getD f.placed u []).filter fun x => x.1 != tag
  if left = [] then { f with placed := Map.erase f.placed u, pack := Map.filterKV f.pack fun _ p => p.1 != u }
  else { f with placed := Map.insert f.placed u left }

/-- One live page fewer on logical unit `u` (R217): at none the unit is unmapped and its physical unit invalid. -/
def Flash.dropUnit (f : Flash) (tag u : Nat) : Flash :=
  match Map.find? f.map u with
  | none => f
  | some e =>
    let g := f.unplace tag u
    if e.occ ≤ 1 then
      { g with map := Map.erase g.map u, blocks := Map.adjust g.blocks e.block fun b => { b with valid := b.valid - 1 } }
    else { g with map := Map.insert g.map u { e with occ := e.occ - 1 } }

/-- Frees a NAND copy: one RELEASE record is written, with an OCC decrement of 1 in each of its units, and each loses a live page
(R217, Table 9-3). -/
def Flash.free (f : Flash) (l : Locator) : Flash :=
  (List.range l.units).foldl (fun g k => (g.dropUnit l.tag (l.unit + k)).touchSeg (l.unit + k) true) (f.journal .release l.unit l.units 1)

/-- Whether every MAP record of a copy is durable (R221). -/
def Flash.durable (f : Flash) (l : Locator) : Bool := !f.jpending.any fun r => r.kind == .map && r.c == l.tag

/-- Updates the map for a durable copy (R217, R221): each of its units is mapped where it was last programmed. -/
def Flash.mapIn (f : Flash) (l : Locator) : Flash :=
  let one (g : Flash) (k : Nat) : Flash :=
    let u := l.unit + k
    let pun := match (Map.getD g.placed u []).getLast? with | some x => x.2 | none => 0
    let b := blockOfPun g pun
    let (occ, g1) := match Map.find? g.map u with
      | some e => (e.occ, g.updBlock e.block fun x => { x with valid := x.valid - 1 })
      | none => (0, g)
    let g2 := g1.updBlock b fun x => { x with valid := x.valid + 1 }
    { g2 with map := Map.insert g2.map u { pun, occ := occ + 1, block := b } }.touchSeg u true
  let g := (List.range l.units).foldl one f
  { g with queuedUnits := Map.put g.queuedUnits l.channel (Map.getD g.queuedUnits l.channel 0 - l.units) 0 }

/-- Drops a copy that never became durable (R221): it leaves no record, and its programmed units are invalid; a page that shares a unit
with it keeps its own. -/
def Flash.unwrite (f : Flash) (l : Locator) : Flash :=
  let g := (List.range l.units).foldl (fun g k => g.unplace l.tag (l.unit + k)) f
  { g with jpending := g.jpending.filter fun r => !(r.kind == .map && r.c == l.tag),
           queuedUnits := Map.put g.queuedUnits l.channel (Map.getD g.queuedUnits l.channel 0 - l.units) 0 }

/-- Frees a page's NAND copies, shadow included. The copy of a migration that runs leaves no record while its own are not durable
(R221). -/
def freeNand (p : Page) (s : State) : State :=
  let running := p.state = .migrating ∧ p.dest = 1 ∧ !p.restoring
  let f1 := match p.loc with
    | some l => if ¬running then s.flash.free l else if s.flash.durable l then (s.flash.mapIn l).free l else s.flash.unwrite l
    | none => s.flash
  let f2 := match p.shadow with | some l => f1.free l | none => f1
  s.setFlash f2

/-- Gives back the grant space of a lent page to the owner (R201). -/
def freeGrant (h : Nat) (s : State) : State :=
  let upd (g : GrantIn) : GrantIn := { g with used := g.used.filter fun u => u.2.2 != h }
  let t := match Map.find? s.pages h with
    | some p => if s.tier.grantsIn.any fun g => g.used.any fun u => u.2.2 == h then writeMeta p.part 2 h s else s
    | none => s
  { t with tier := { t.tier with grantsIn := t.tier.grantsIn.map upd } }

/-- Removes a directory entry and its key record, and releases the share that it holds on the page a PTR names (R172, R176). -/
def dropEntryOf (idx ptr : Nat) (s : State) : State :=
  match Map.find? s.mex.dir idx with
  | none => s
  | some e =>
    let s1 : State := { s with mex := { s.mex with dir := Map.erase s.mex.dir idx, keys := Map.erase s.mex.keys idx } }
    match s.pageBySerial e.part ptr with
    | some (h, _) => s1.updPage h fun p => { p with shares := p.shares - 1 }
    | none => s1

/-- Removes a directory entry and releases its share (R176). -/
def dropEntry (idx : Nat) (s : State) : State :=
  match Map.find? s.mex.dir idx with
  | none => s
  | some e => dropEntryOf idx e.ptr s

/-- Removes every directory entry of a page that is dropped or released (R176). -/
def dropPageEntries (part h : Nat) (s : State) : State :=
  let mine := Map.keys (Map.filterKV s.mex.dir fun _ e => e.part == part && e.ptr == h % 2 ^ 40 && s.dirNames part e.ptr h)
  mine.foldl (fun t i => dropEntry i t) s

/-- Takes a share away from a page on behalf of a conversation. A page left without a share is released, once nothing reads
it, and until then holds that conversation's slot (R39, R55). -/
def releaseShare (conv h : Nat) (s : State) : State :=
  s.updPage h fun p => { p with shares := p.shares - 1, conv := if p.shares ≤ 1 then conv else p.conv }

/-- Whether a page can go: no share, no reader, no pod (R50). -/
def Page.gone (p : Page) : Bool := p.shares == 0 && p.readers == [] && p.holders == 0

/-- Frees the conversation slots of deleted conversations none of whose pages remain (R39): the generation rises, and a slot
at 0xFFF is retired. -/
def freeSlots (s : State) : State :=
  let done := s.convs.filter fun kv => kv.2.deleting && (!s.pages.any fun q => q.2.conv == kv.1 && q.2.shares == 0)
    && !s.streams.any fun q => q.1 / 256 == kv.1
  done.foldl (fun t kv =>
    let t1 : State := { writeMeta kv.2.part 1 kv.1 t with convs := Map.erase t.convs kv.1 }
    if hOrigin kv.1 = t.nodeId ∧ kv.2.primaryNode.isNone then
      t1.updPart kv.2.part fun p =>
        { p with slots := Map.adjust p.slots (hLocal kv.1) fun c =>
            if c.gen = hGen kv.1 then { gen := c.gen + 1, used := false, retired := decide (c.gen + 1 ≥ 0xFFF) } else c }
    else t1) s

/-- Whether an APPEND to a conversation has not completed: a DELETE waits for it before the pages go (R41). -/
def State.appending (s : State) (conv : Nat) : Bool :=
  s.reqs.any fun kv => kv.2.kind == .append && kv.2.conv == conv && kv.2.status.isNone

/-- Takes apart the streams of one deleted conversation: the share that each of its list entries holds goes (R41, R55). -/
def dropStreams (conv : Nat) (s : State) : State :=
  let mine := s.streams.filter fun kv => kv.1 / 256 == conv
  let part := match Map.find? s.convs conv with | some c => c.part | none => 0
  let s1 := mine.foldl (fun t kv =>
    (Map.vals kv.2.entries).foldl (fun u h => releaseShare conv h u) (writeMeta part 0 kv.1 t)) s
  { s1 with streams := s1.streams.filter fun kv => kv.1 / 256 != conv }

/-- Takes apart every deleted conversation that no APPEND still writes. -/
def reap (s : State) : State :=
  let dead := s.convs.filter fun kv => kv.2.deleting && !s.appending kv.1
  dead.foldl (fun t kv => dropStreams kv.1 t) s

/-- Drops released mask objects that no query in flight names (bytes 40 to 47 of its block, Table 3-1). -/
def sweepMasks (s : State) : State :=
  let used (h : Nat) : Bool := s.reqs.any fun kv => kv.2.kind == .query && kv.2.status.isNone && leAt kv.2.blk 40 8 == h
  let gone := Map.filterKV s.masks fun h m => m.deleted && !used h
  let t := gone.foldl (fun u kv => writeMeta kv.2.part 3 kv.1 u) s
  { t with masks := Map.filterKV t.masks fun h m => !m.deleted || used h }

/-- Releases every page that can go, with what it holds in every tier, and then frees conversation slots;
deleted conversations are taken apart first. -/
def sweep (s0 : State) : State :=
  let s := reap (sweepMasks s0)
  let gone := s.pages.filter fun kv => kv.2.gone
  let s1 := gone.foldl (fun t kv => freeGrant kv.1 (freeNand kv.2 (dropPageEntries kv.2.part kv.1 t))) s
  freeSlots { s1 with pages := s1.pages.filter fun kv => !kv.2.gone }

/-- A CACHE page goes to ABSENT (Table 2-6): its copies and directory entries go, its list entries stay. What a pod holds of it, and its
HBM blocks with that, wait for SOURCE_COPY_RELEASE (R50). -/
def toAbsent (h : Nat) (s : State) : State :=
  match Map.find? s.pages h with
  | none => s
  | some p =>
    let s1 := freeGrant h (freeNand p (dropPageEntries p.part h s))
    s1.updPage h fun q =>
      let held := decide (q.holders ≠ 0)
      let q1 := if held then q else { q.freeHbm with rows := [], tail := [] }
      { q1 with state := .absent, tier := 3, sketch := [], sketchHeld := false, shadow := none, loc := none, lend := none,
                srcHeld := held, srcTier := 0, srcReaders := [], restoring := false, target := none }

end Sys2Proof.Machine
end

