-- ==== Sys2Proof/Machine/Pods.lean ====
section
/-! DEFINITION. Pods: their lanes and spares (R14, R342), profile caches (R16, R116, R117), the choice of a pod (R18, R321)
and the unit state they hold (R63, R64, R446). -/
namespace Sys2Proof.Machine

/-- A pod as made: pods 26 and 27 of a region are its spares (R14, R15 of Table 1-1). -/
def Pod.initial (pod : Nat) : Pod :=
  { st := if pod < 26 then 0 else 1, stopped := false, lanes := [], cache := [], queued := 0, sets := [], passes := [],
    podFaultAt := none, unitFaultAt := none, forced := false }

/-- A lane as made: lanes 64 and 65 are the spares. -/
def Lane.initial (lane : Nat) : Lane := { st := if lane < 64 then 0 else 1, faultAt := none, testing := false, forced := false }

/-- The place of a pod. -/
def podKey (region pod : Nat) : Nat := region * 28 + pod

/-- A pod. -/
def State.pod (s : State) (region pod : Nat) : Pod := Map.getD s.pods (podKey region pod) (.initial pod)

/-- Changes a pod. -/
def State.updPod (s : State) (region pod : Nat) (f : Pod → Pod) : State :=
  { s with pods := Map.insert s.pods (podKey region pod) (f (s.pod region pod)) }

/-- A lane of a pod. -/
def Pod.lane (p : Pod) (lane : Nat) : Lane := Map.getD p.lanes lane (.initial lane)

/-- An item that stands for none. -/
def Item.none : Item :=
  { entry := 0, page := 0, region := 0, set := 0, slice := 2, state := .done, pod := 0, fill := 0, opened := false, grouped := false,
    units := 0, heldAt := 0, streamed := false, fellBack := false, handed := false }

/-- Lanes of a pod in a state: 0 active, 1 spare, 2 retired. -/
def Pod.lanesIn (p : Pod) (st : Nat) : List Nat := (List.range 66).filter fun l => (p.lane l).st == st

/-! ## A pod's pages (R13 to R15) -/

/-- The work a pod has been given: (request, item) in order. -/
def Pod.work (p : Pod) : List (Nat × Nat) := p.passes.flatMap (·.members)

/-- Bytes of a pod's page buffers. -/
def pageBuffers : Nat := 1048576

/-- The pages in a pod's buffers: the one being computed and those fetched behind it, in order, as far as the space goes. A page's
space is taken until its pass has left the list, every unit of it completed and checked (R15). -/
def Pod.buffered (p : Pod) : List Pass := go pageBuffers p.passes
where
  /-- As many passes, in order, as fit. -/
  go (room : Nat) : List Pass → List Pass
    | [] => []
    | x :: r => if x.bytes ≤ room then x :: go (room - x.bytes) r else []

/-- Lanes that take work units: active and not stopped for a test (R14, R338). -/
def Pod.workers (p : Pod) : List Nat := (p.lanesIn 0).filter fun l => !(p.lane l).testing

/-- The sequencer issues the units of the pod's first page to its lanes in turn (R14): with fewer units than lanes the others stay
idle for that page. -/
def Pod.issue (p : Pod) : Pod :=
  { p with passes := match p.passes with
    | x :: r => (if x.lanes = [] then { x with lanes := p.workers.take x.units } else x) :: r
    | [] => [] }

/-- The units of a pass that a lane has: every n-th, where n lanes took units (R14). -/
def Pass.unitsOf (x : Pass) (lane : Nat) : List Nat :=
  match x.lanes.idxOf? lane with
  | some k => (List.range x.units).filter fun u => u % x.lanes.length == k
  | none => []

/-- Whether a lane is computing: it has units of the pod's first page, or re-runs one (R14, R338). -/
def Pod.computing (p : Pod) (lane : Nat) : Bool :=
  match p.passes with
  | x :: _ => x.lanes.contains lane || x.rerun.any fun y => y.2 == some lane
  | [] => false

/-- Gives a pod one more page, behind those it has. -/
def Pod.give (x : Pass) (p : Pod) : Pod := ({ p with passes := p.passes ++ [x], queued := p.queued + x.units } : Pod).issue

/-- Takes a member's units out of a pod; a pass without members leaves, and the next page's units are issued. -/
def Pod.without (m : Nat × Nat) (units : Nat) (p : Pod) : Pod :=
  ({ p with
    passes := (p.passes.map fun x => { x with members := x.members.filter (· != m) }).filter fun x => x.members != []
    queued := p.queued - units } : Pod).issue

/-- Whether every unit of the pass that holds a member can have completed (R15): it is the pod's first, and no unit to be re-run is
without a lane that could take it. -/
def Pod.finishes (p : Pod) (m : Nat × Nat) : Bool :=
  match p.passes with
  | x :: _ => x.members.contains m && (p.workers != [] || x.rerun.all fun y => y.2.isSome)
  | [] => false

/-- Pods of a region that are active. -/
def State.activePods (s : State) (region : Nat) : List Nat := (List.range 28).filter fun p => (s.pod region p).st == 0

/-- The partition a pod is reserved to (R321). -/
def State.podOwner (s : State) (region pod : Nat) : Option Nat :=
  (List.find? (fun kv => bitOf kv.2.pods pod) (s.region region).rsv).map (·.1)

/-- The pods a partition's work may use (R321): those reserved to it, or where it has none the unreserved ones. -/
def State.podAllowed (s : State) (region : Nat) (part : Option Nat) (pod : Nat) : Bool :=
  let mine : Nat := match part with
    | some p => match Map.find? (s.region region).rsv p with | some r => r.pods | none => 0
    | none => 0
  let strict : Bool := match part with | some p => s.strict p | none => false
  if strict ∧ mine ≠ 0 then bitOf mine pod else (s.podOwner region pod).isNone

/-- Whether a cache entry is pinned (R116): the pod holds unit state, or a queued page, of a request bound to it. -/
def State.pinned (s : State) (p : Pod) (e : CacheEnt) : Bool :=
  let bound (i : Nat) : Bool := match Map.find? s.reqs i with
    | some r => r.bound && r.profile == e.id && r.version == e.ver
    | none => false
  p.sets.any (fun x => bound x.req) || p.work.any (fun w => bound w.1)

/-- Whether a pod can take work of a version (R116): it holds it, or has room or an unpinned entry. -/
def State.cacheOk (s : State) (p : Pod) (id ver : Nat) : Bool :=
  p.cache.any (fun e => e.id == id && e.ver == ver) || decide (p.cache.length < 4) || p.cache.any fun e => !s.pinned p e

/-- Removes the last entry that satisfies a test. -/
def dropLast {α : Type} (f : α → Bool) (xs : List α) : List α :=
  let rec go : List α → List α
    | [] => []
    | x :: r => if f x then r else x :: go r
  (go xs.reverse).reverse

/-- Takes a version into a pod's cache, most recently used first; a miss replaces the least recently used unpinned entry
and counts in PROF_MISSES (R16, R116, R117). -/
def useProfile (region pod id ver : Nat) (s : State) : State :=
  let p := s.pod region pod
  let e : CacheEnt := ⟨id, ver⟩
  if p.cache.contains e then s.updPod region pod fun q => { q with cache := e :: q.cache.filter (· != e) }
  else
    let kept := if p.cache.length < 4 then p.cache else dropLast (fun x => !s.pinned p x) p.cache
    (s.updPod region pod fun q => { q with cache := e :: kept }).bump pgProf 0x050

/-- R18: among the pods that may and can take the work, one whose cache holds the version, then the fewest queued units, then
the lowest number. `can` says whether a pod has room for the unit state. -/
def State.choosePod (s : State) (region : Nat) (part : Option Nat) (id ver : Nat) (can : Pod → Bool) : Option Nat :=
  let ok (k : Nat) : Bool :=
    let p := s.pod region k
    p.st == 0 && !p.stopped && !(s.region region).retired && s.podAllowed region part k && s.cacheOk p id ver && can p
  let rank (k : Nat) : Nat :=
    let p := s.pod region k
    (if p.cache.contains ⟨id, ver⟩ then 0 else 2 ^ 40) + p.queued
  ((List.range 28).filter ok).foldl (fun b k => match b with
    | none => some k
    | some j => if rank k < rank j then some k else some j) none

/-! ## Unit sets -/

/-- A unit set (R64): a run of query tokens and of heads, and the bytes of its state. -/
structure SetShape where
  tok : Nat
  ntok : Nat
  head : Nat
  nhead : Nat
  bytes : Nat
deriving DecidableEq, Repr

/-- Bytes of unit state per unit (Table 3-5). -/
def unitBytes (g : Geo) (path : Nat) : Nat :=
  if path = 0 then g.cc + g.cp + 4 * g.cc + 16
  else if path = 1 then g.dk + g.cp + 4 * g.dv + 16
  else g.group * (5 * g.d + 16)

/-- The work buffer area a path uses (Table 3-5). -/
def unitArea (path : Nat) : Nat := if path = 1 then 384 * 1024 else 768 * 1024

/-- Tokens per set when each token has `per` units (R64): for LATENT the largest multiple of 64 units that fits, else the
largest that fits. -/
def tokensPerSet (g : Geo) (path per : Nat) : Nat :=
  let cap := unitArea path / max 1 (unitBytes g path)
  let most := cap / max 1 per
  if path = 0 then
    match ((List.range (most + 1)).reverse.filter fun t => decide (0 < t ∧ t * per % 64 = 0)) with
    | t :: _ => t
    | [] => max 1 most
  else max 1 most

/-- The runs of `n` that cover `total`: start and length. -/
def runs (n total : Nat) : List (Nat × Nat) :=
  (List.range (ceilDiv total (max 1 n))).map fun i => (i * max 1 n, min (max 1 n) (total - i * max 1 n))

/-- A request's unit sets (R64); `kvSlice` is the number of KV heads of a DENSE slice (R65). -/
def setShapes (g : Geo) (path qtok kvSlice : Nat) : List SetShape :=
  let u := unitBytes g path
  if path = 0 then
    (runs (tokensPerSet g 0 g.h) qtok).map fun t => ⟨t.1, t.2, 0, g.h, t.2 * g.h * u⟩
  else if path = 1 then
    let grp := if g.dk + g.dv ≤ 256 then 8 else 4
    (runs grp g.h).flatMap fun hh => (runs (tokensPerSet g 1 grp) qtok).map fun t => ⟨t.1, t.2, hh.1, hh.2, t.2 * hh.2 * u⟩
  else
    (runs kvSlice g.kv).flatMap fun k => (runs (tokensPerSet g 2 (max 1 k.2)) qtok).map fun t =>
      ⟨t.1, t.2, k.1 * g.group, k.2 * g.group, t.2 * k.2 * u⟩

/-- The largest image a page may have in the page buffers (R65). -/
def imageLimit : Nat := 320 * 1024

/-- Bytes of one KV head's part of an image (R131): its key and value elements and scales, and its channels' parameters. -/
def kvBlockBytes (g : Geo) (fmt : Nat) (tail : Bool) : Nat :=
  if tail then 256 * 2 * g.d * 2
  else 256 * 2 * (g.d * elemBits fmt / 8 + (if fmt = 0xF then 0 else g.d / 32)) + paramBytes g fmt / max 1 g.kv

/-- KV heads per slice of a DENSE request (R65): all of them unless some page must be sliced, else the most whose image fits
in every page. -/
def kvPerSlice (g : Geo) (forms : List (Nat × Bool)) : Nat :=
  if forms.any fun f => decide (imageLimit < imageBytes g f.1 f.2) then
    max 1 (forms.foldl (fun n f => min n (imageLimit / max 1 (kvBlockBytes g f.1 f.2))) g.kv)
  else g.kv

/-- The slices of a latent page (R65): 2 is the whole page, 0 and 1 its halves. -/
def latentSlices (g : Geo) (fmt : Nat) (tail : Bool) : List Nat :=
  if imageLimit < imageBytes g fmt tail then [0, 1] else [2]

/-- Whether a pod holds a set's state, or has room for it (R66, R446). -/
def Pod.canHold (p : Pod) (req set bytes : Nat) (expanded : Bool) : Bool :=
  let held (e : Bool) : Nat := p.sets.foldl (fun n x => if x.expanded = e then n + x.bytes else n) 0
  p.sets.any (fun x => x.req == req && x.set == set) ||
    (if expanded then decide (held false = 0 ∧ held true + bytes ≤ 384 * 1024)
     else decide (held true = 0 ∧ held false + bytes ≤ 768 * 1024))

/-- Gives a pod a set's state where it holds none; the first pod of a region to take the set is its anchor (R64). -/
def takeSet (region pod req set bytes : Nat) (expanded : Bool) (s : State) : State :=
  let anchored := (List.range 28).any fun k => (s.pod region k).sets.any fun x => x.req == req && x.set == set
  s.updPod region pod fun p =>
    if p.sets.any (fun x => x.req == req && x.set == set) then p
    else { p with sets := p.sets ++ [{ req, set, bytes, expanded, anchor := !anchored, acc := [] }] }

/-- Frees every state of a request in every pod. -/
def freeSets (req : Nat) (s : State) : State :=
  { s with pods := s.pods.map fun kv => (kv.1, { kv.2 with sets := kv.2.sets.filter fun x => x.req != req }) }

/-- Whether some pod still holds work of a request (R50). -/
def State.podsBusy (s : State) (req : Nat) : Bool := s.pods.any fun kv => kv.2.work.any fun w => w.1 == req

end Sys2Proof.Machine
end

