-- ==== Sys2Proof/Machine/Requests.lean ====
section
/-! DEFINITION. The life of a request: when the node takes commands (R377, R382), its commit point and its completion (R159,
R50), receive regions in HBM (R253), the forwarding of a request (R363) and the holding of requests for a frozen
conversation (R365). -/
namespace Sys2Proof.Machine

/-- An event happens only on a node that has booted. -/
def whenReady (f : State → State) (s : State) : State := if s.phase = .ready then f s else s

/-- A reset domain takes no work: one of its quiesce bits is set, or it is in reset (R389). -/
def State.quiet (s : State) (d : Nat) : Bool :=
  bitOf (s.reg pgRst 0x048) d || bitOf (s.reg pgRst 0x04C) d || s.boot.resetting.contains d

/-- Work that would need a domain waits while the domain takes none (R389): the event does not happen yet. -/
def whenOpen (d : Nat) (f : State → State) (s : State) : State := if s.quiet d then s else f s

/-- Whether a command waits for a domain: the request decoder, and the Match Engine for LOOKUP, INSERT and DELETE. -/
def State.commandWaits (s : State) (op : Nat) : Bool := s.quiet 16 || (s.quiet 20 && decide (0x09 ≤ op ∧ op ≤ 0x0B))

/-- A command is taken by a node that has booted, once the domains it needs take work; in recovery it completes with INVALID_MODE
(R377), while the boot waits with BUSY (R382), and a node that is off or has stopped takes none. -/
def serving (op : Nat) (src : Src) (blk : Bytes) (f : State → State) (s : State) : State :=
  match s.phase with
  | .ready =>
    if s.commandWaits op then { s with boot := { s.boot with waiting := s.boot.waiting ++ [(op, src, blk)] } } else f s
  | .recovery => finish src (leAt blk 0 8) .invalidMode s
  | .waitPwrFail => finish src (leAt blk 0 8) .busy s
  | _ => s

/-! ## Regions (R253) -/

/-- Entries of the region table (R253); index 0 is not used (log entry 23). -/
def regionTable : Nat := 65536

/-- The RKEY of a region table entry. -/
def rkeyOf (idx : Nat) (r : RRegion) : Nat := idx * 65536 + r.check

/-- Registers a region; none when the table is full. The check value is drawn anew (R253). -/
def register (loc base len owner fn finQp : Nat) (s : State) : Option (Nat × State) :=
  let idx := Map.lowestFree s.pft.regions 1
  if idx < regionTable then
    let (n, s1) := s.draw
    let r : RRegion := { check := Config.rkeyCheck n % 65536, loc, base, len, owner, fn, finQp, mem := [] }
    some (idx, { s1 with pft := { s1.pft with regions := Map.insert s1.pft.regions idx r } })
  else none

/-- Deregisters a region. -/
def deregister (idx : Nat) (s : State) : State :=
  { s with pft := { s.pft with regions := Map.erase s.pft.regions idx } }

/-- The mark of a receive region for a result that nobody waits for: its FIN deregisters it, or the end of its connection. -/
def discardMark : Nat := 2

/-- Keeps a receive region until what is still to come has come, and discards it (R161). -/
def discardLate (idx : Nat) (s : State) : State :=
  { s with pft := { s.pft with regions := Map.adjust s.pft.regions idx fun r => { r with finQp := discardMark } } }

/-- Deregisters the receive regions that waited only for what a failed connection would have brought (R161). -/
def dropLate (conn : Nat) (s : State) : State :=
  { s with pft := { s.pft with regions := Map.filterKV s.pft.regions fun _ r => !(r.loc == 2 && r.finQp == discardMark && r.fn == conn) } }

/-- The RKEY of a registered index. -/
def State.rkey (s : State) (idx : Nat) : Nat :=
  match Map.find? s.pft.regions idx with | some r => rkeyOf idx r | none => 0

/-- The region an RKEY names, check value included (R254). -/
def State.regionOf (s : State) (rkey : Nat) : Option RRegion :=
  match Map.find? s.pft.regions (rkey / 65536) with
  | some r => if r.check = rkey % 65536 then some r else none
  | none => none

/-- The owner of regions of the Keeper. -/
def keeperOwner : Nat := 256

/-- The bytes of an HBM region (unwritten bytes read as zero here; a result is read only where bytes were placed). -/
def RRegion.bytes (r : RRegion) (off n : Nat) : Bytes := (List.range n).map fun k => Map.getD r.mem (off + k) 0

/-! ## Commit -/

/-- Removes a request from the readers of every page. -/
def dropReaders (i : Nat) (s : State) : State :=
  { s with pages := s.pages.map fun kv => 
      (kv.1, { kv.2 with readers := kv.2.readers.filter (· != i), srcReaders := kv.2.srcReaders.filter (· != i) }) }

/-- Removes a request's members from every gathered group: a group's time runs from its oldest member left (R85), and a group
without members goes. -/
def dropMembers (i : Nat) (s : State) : State :=
  let heldAt (m : Nat × Nat) : Option Nat := (Map.find? s.reqs m.1).bind fun r => (r.items[m.2]?).map (·.heldAt)
  let clean (g : Group) : Group :=
    let left := g.members.filter fun m => m.1 != i
    { g with members := left, since := if left = g.members then g.since else ((left.head?.bind heldAt).getD g.since) }
  { s with regions := s.regions.map fun kv =>
      (kv.1, { kv.2 with groups := (kv.2.groups.map clean).filter fun g => g.members != [] }) }

/-- Once a committed request has no work left in a pod (R50), its entry and unit state are freed and its completion is
written (R160). -/
def settleReq (i : Nat) (s : State) : State :=
  match Map.find? s.reqs i with
  | none => s
  | some r =>
    match r.status with
    | none => s
    | some st =>
      if s.podsBusy i then s
      else
        sweep (deliver r.src (resultKind r.kind) r.id st 0 r.slot r.res
          (freeSets i { s with reqs := Map.erase s.reqs i }))

/-- Sends a notice on a conversation to a peer's Keeper (R365). -/
def sendNotice (node what conv : Nat) (s : State) : State :=
  match s.keeperConn node with
  | some i => sendMessage i (keeperMsg 1 false false 3 (Config.noticeBytes what conv) 0 0) s
  | none => s

/-- Whether a frozen conversation can be answered for (R365 steps 2 and 3): every accepted request has reached its commit point and
every mirrored stream its next slot. -/
def State.freezeMet (s : State) (conv : Nat) : Bool :=
  (!s.reqs.any fun kv => kv.2.conv == conv && kv.2.status.isNone && kv.2.kind != .forward) &&
  (s.streams.all fun kv => kv.1 / 256 != conv || !kv.2.retained || (kv.2.mstate == 2 && decide (kv.2.next ≤ kv.2.buoy)))

/-- Answers the freeze notices whose conditions are met (R365 step 3). -/
def answerFreezes (s : State) : State :=
  (s.convs.filter fun kv => kv.2.freezer.isSome && !kv.2.answered && s.freezeMet kv.1).foldl (fun t kv =>
    match kv.2.freezer with
    | some node => sendNotice node 1 kv.1 { t with convs := Map.adjust t.convs kv.1 fun c => { c with answered := true } }
    | none => t) s

/-- The opcode of a command (Table 12-3). -/
def opQuery : Nat := 0x01
def opAppend : Nat := 0x02
def opSeal : Nat := 0x03
def opFetch : Nat := 0x04
def opLend : Nat := 0x05
def opReclaim : Nat := 0x06
def opMirror : Nat := 0x07
def opMerge : Nat := 0x08
def opLookup : Nat := 0x09
def opInsert : Nat := 0x0A
def opDelete : Nat := 0x0B
def opAbort : Nat := 0x0C

/-- The result block of a command that does not end OK: the common form, with QTOK of a QUERY in its place (Table 3-8, log entry 119). -/
def refusalBlock (opcode : Nat) (blk : Bytes) (reqId status handle aux0 aux1 : Nat) : Bytes :=
  let r := resultBlock reqId status handle aux0 aux1
  if opcode = opQuery then overwrite r 10 [BitVec.ofNat 8 (bitsOf (leAt blk 16 4) 20 5)] else r

/-- Commits a command of a block that took no request entry. -/
def finishBlk (opcode : Nat) (blk : Bytes) (src : Src) (reqId : Nat) (st : Status) (s : State) (aux0 aux1 : Nat := 0) (slot : Nat := 16) :
    State :=
  deliver src 1 reqId st.code 0 slot (refusalBlock opcode blk reqId st.code 0 aux0 aux1) (recordDone reqId (s.masterOf src) st.code s)

/-- The commit point of a request (R159): the first to reach it decides, and nothing after it changes status or result. -/
def commitReq (i : Nat) (st : Status) (res : Bytes) (s : State) : State :=
  match Map.find? s.reqs i with
  | none => s
  | some r =>
    if r.status.isSome then s
    else
      let s1 := (recordDone r.id r.master st.code s).updReq i fun q => { q with status := some st.code, res }
      answerFreezes (settleReq i (dropMembers i (dropReaders i s1)))

/-- Commits a request with a result of the common form. -/
def commitPlain (i : Nat) (st : Status) (s : State) (handle : Nat := 0) (aux0 aux1 : Nat := 0) : State :=
  match Map.find? s.reqs i with
  | none => s
  | some r => commitReq i st (refusalBlock (if r.kind = .forward then r.flags else 0) r.blk r.id st.code handle aux0 aux1) s

/-- Settles every committed request that a pod has let go of. -/
def settleAll (s : State) : State :=
  (Map.keys (Map.filterKV s.reqs fun _ r => r.status.isSome)).foldl (fun t i => settleReq i t) s

/-! ## Forwarding (R363) -/

/-- A request's remaining deadline in whole µs (R148, R363). -/
def State.remaining (s : State) (deadline : Nat) : Nat := (deadline - s.time) / 1000

/-- Bytes of a receive region for a result block: a header, 16 × 128 entries of at most 1,040 bytes, and room for the
result of an ABORT. -/
def receiveBytes : Nat := 32 + 2048 * 1040 + 64

/-- A contribution as first listed. -/
def Contribution.initial (node : Nat) (isMerge : Bool) (off len : Nat) : Contribution :=
  { node, isMerge, off, len, state := 0, link := 0, rkey := 0, aborted := false, got := none }

/-- Sends the command of request entry `i` to a stub's destination (R363): the block unchanged but for a QUERY's DEADLINE, as a CMD
SEND on the Keeper connection, with a receive region for the result. Below 1 µs of deadline, or with no OPEN Keeper
connection or no region table entry, it commits DEADLINE (log entry 24). -/
def forwardNow (node i : Nat) (s : State) : State :=
  match Map.find? s.reqs i with
  | none => s
  | some r =>
    let rem := match r.deadline with | some d => s.remaining d | none => 1
    let blk := if r.deadline.isSome ∧ r.flags = opQuery then overwrite r.blk 36 (toLE 4 rem) else r.blk
    match s.keeperConn node with
    | none => commitPlain i .deadline s
    | some conn =>
      if rem < 1 then commitPlain i .deadline s
      else match register 2 0 receiveBytes keeperOwner conn 0 s with
        | none => commitPlain i .deadline s
        | some (idx, s1) =>
          let c : Contribution := { Contribution.initial node false 0 blk.length with state := 1, link := conn, rkey := idx }
          let s2 := (s1.updReq i fun q => { q with contribs := [c] }).bump pgCmp 0x08C
          meter r.slot 4 blk.length (sendMessage conn (keeperMsg 1 false true 1 blk (s2.rkey idx) 0) s2)

/-- Accepts a request that is not run here but forwarded or held (R363, R365): it holds its entry throughout. -/
def acceptAway (opcode : Nat) (src : Src) (reqId : Nat) (part : Option Nat) (slot : Nat) (deadline : Option Nat) (conv : Nat)
    (blk : Bytes) (s : State) : Nat × State :=
  addReq { Req.initial .forward reqId src (s.masterOf src) part slot blk with
           deadline, conv, flags := opcode, entryUsed := true } s

/-- Whether a command came over a Keeper connection, where it is never forwarded again (R363). -/
def State.fromKeeper (s : State) (src : Src) : Bool :=
  match src with
  | .pft conn _ _ _ => match Map.find? s.pft.conns conn with | some c => c.keeper | none => false
  | .keeper => true
  | _ => false

/-- The absolute deadline of a DEADLINE field in µs, none for 0 (R156). -/
def State.deadlineOf (s : State) (us : Nat) : Option Nat := if us = 0 then none else some (s.time + 1000 * us)

/-- Answers REDIRECT or STALE_EPOCH with the node's epoch and the stub's node (R362). -/
def answerComp (st : Status) (src : Src) (reqId comp : Nat) (object : Option Nat) (s : State) (opcode : Nat := 0) (blk : Bytes := []) :
    State :=
  finishBlk opcode blk src reqId st (countComp st s) (s.epochOf comp) (s.stubNode object)

/-- Check 3 of a command that names conversation `object` (Table 15-3), and what follows where it does not pass: the answers
of R361 and R362, or forwarding (R363). `go` runs the later checks. -/
def withComp (opcode : Nat) (src : Src) (reqId comp epoch : Nat) (object : Option Nat) (held : Bool) (part : Option Nat)
    (deadline : Option Nat) (blk : Bytes) (go : State → State) (s : State) : State :=
  match s.compCheck comp epoch object held with
  | .invalid => finishBlk opcode blk src reqId .invalidMode s
  | .stale => answerComp .staleEpoch src reqId comp object s opcode blk
  | .redirect => answerComp .redirect src reqId comp object s opcode blk
  | .forward node =>
    if s.fromKeeper src then answerComp .redirect src reqId comp object s opcode blk
    else if !s.entryFree part ∨ s.duplicate (s.masterOf src) reqId then finishBlk opcode blk src reqId .busy s
    else
      let (i, s1) := acceptAway opcode src reqId part (s.chargeSlot comp) deadline (object.getD 0) blk s
      forwardNow node i s1
  | .pass ahead => go (countAhead ahead s)

/-- Whether a conversation is frozen (R365 step 2). -/
def State.frozen (s : State) (conv : Nat) : Bool :=
  match Map.find? s.convs conv with | some c => c.freezer.isSome | none => false

/-- Holds an accepted request of a frozen conversation (R365 step 2). -/
def holdFrozen (opcode : Nat) (src : Src) (reqId : Nat) (part : Option Nat) (slot : Nat) (deadline : Option Nat) (conv : Nat)
    (blk : Bytes) (s : State) : State :=
  let (i, s1) := acceptAway opcode src reqId part slot deadline conv blk s
  { s1 with convs := Map.adjust s1.convs conv fun c => { c with held := c.held ++ [i] } }

end Sys2Proof.Machine
end

