-- ==== Sys2Proof/Machine/Operands.lean ====
section
/-! DEFINITION. The operand forms: the command blocks of every operation as fields of their bytes, with check 1 of each (length,
reserved fields and encodings). -/
namespace Sys2Proof.Machine

/-- REQ_ID of a command block: bytes 0 to 7 in every block. -/
def blkId (b : Bytes) : Nat := leAt b 0 8

/-- Whether bits `[lo + w - 1 : lo]` of the `n`-byte field at `i` are zero. -/
def zbits (b : Bytes) (i n lo w : Nat) : Bool := bitsOf (leAt b i n) lo w == 0

/-! ## QUERY (Table 3-1) -/

/-- The fields of a query block header (Table 3-1). -/
structure Query where
  id : Nat
  conv : Nat
  layer : Nat
  path : Nat
  sel : Nat
  mask : Nat
  normalised : Bool
  bf16 : Bool
  qfmt : Nat
  qtok : Nat
  noGather : Bool
  rpol : Nat
  start : Nat
  len : Nat
  sink : Nat
  window : Nat
  topp : Nat
  thresh : W32
  deadline : Nat
  maskObj : Nat
  epoch : Nat
  comp : Nat
deriving DecidableEq, Repr

/-- Reads a query block header (Table 3-1). -/
def Query.ofBlock (b : Bytes) : Query :=
  let w := leAt b 16 4
  let v := leAt b 28 4
  { id := blkId b, conv := leAt b 8 8, layer := bitsOf w 0 8, path := bitsOf w 8 2, sel := bitsOf w 10 2,
    mask := bitsOf w 12 2, normalised := bitOf w 14, bf16 := bitOf w 15, qfmt := bitsOf w 16 4, qtok := bitsOf w 20 5,
    noGather := bitOf w 25, rpol := bitsOf w 26 2, start := leAt b 20 3, len := bitsOf (leAt b 24 4) 0 25,
    sink := bitsOf v 0 4, window := bitsOf v 4 7, topp := bitsOf v 11 13, thresh := BitVec.ofNat 32 (leAt b 32 4),
    deadline := leAt b 36 4, maskObj := leAt b 40 8, epoch := leAt b 48 4, comp := leAt b 52 4 }

/-- QPOS of query token `t`. -/
def qposOf (b : Bytes) (t : Nat) : Nat := leAt b (64 + 4 * t) 3

/-- Bytes of the inline mask with its padding (R57). -/
def Query.maskBytes (q : Query) : Nat := if q.mask = 1 then roundUp (ceilDiv q.len 8) 64 else 0

/-- Whether an FP32 number is finite. -/
def finite32 (x : W32) : Bool := !F32.isNan x && !F32.isInf x

/-- R59. -/
def Query.selOk (q : Query) : Bool :=
  if q.sel = 0 then q.sink == 0 && q.window == 0 && q.topp == 0 && q.thresh == 0
  else if q.sel = 1 then decide (1 ≤ q.topp ∧ q.topp ≤ 4096)
  else finite32 q.thresh && (decide (q.sel = 2) || !F32.less q.thresh 0)

/-- The largest command block (R57, R146). -/
def blockMax : Nat := 4194304

/-- Check 1 of Table 3-2: length, reserved fields, encodings and R59. -/
def Query.check1 (b : Bytes) : Bool :=
  let q := Query.ofBlock b
  decide (b.length ≤ blockMax ∧ 128 + q.maskBytes ≤ b.length ∧ q.path ≤ 2 ∧ q.mask ≤ 2 ∧ q.qfmt ≤ 2 ∧ 1 ≤ q.qtok ∧ q.qtok ≤ 16
    ∧ q.rpol ≤ 2 ∧ 1 ≤ q.len ∧ q.len ≤ 16777216 ∧ q.sink ≤ 8 ∧ q.window ≤ 64
    ∧ q.start + q.len ≤ 16777216 ∧ (q.mask = 1 → q.len ≤ 4096))
  && zbits b 16 4 28 4 && zbits b 20 4 24 8 && zbits b 24 4 25 7 && zbits b 28 4 24 8 && zerosAt b 56 8
  && ((List.range 16).all fun i => if i < q.qtok then zbits b (64 + 4 * i) 4 24 8 else zerosAt b (64 + 4 * i) 4)
  && q.selOk

/-- Bytes of a query element (R58, Table 4-1). -/
def qElemBytes (fmt : Nat) : Nat := dataBytes fmt

/-- Offset of the query data (R57). -/
def Query.dataAt (q : Query) : Nat := 128 + q.maskBytes

/-- The length R58 gives the block under a profile. -/
def Query.fullLen (q : Query) (g : Geo) : Nat := q.dataAt + q.qtok * g.h * g.queryDim * qElemBytes q.qfmt

/-- The query elements of token `t` and head `h` (R58). -/
def Query.elems (q : Query) (b : Bytes) (g : Geo) (t h : Nat) : List Fl :=
  let w := qElemBytes q.qfmt
  (List.range g.queryDim).map fun i => decodeData q.qfmt (leAt b (q.dataAt + ((t * g.h + h) * g.queryDim + i) * w) w)

/-- The inline mask bit of slot position `p` (R73). -/
def Query.inlineBit (q : Query) (b : Bytes) (p : Nat) : Bool :=
  let i := p - q.start
  bitOf (byteAt b (128 + i / 8)) (i % 8)

/-- ENTRY_BYTES (R82). -/
def entryBytes (dv : Nat) (bf16 : Bool) : Nat := roundUp (8 + dv * (if bf16 then 2 else 4)) 16

/-- One result entry (Table 3-10). -/
def entryOf (dv : Nat) (bf16 : Bool) (x : Triple) : Bytes :=
  let o := (List.range dv).flatMap fun i =>
    let v := x.o.getD i 0
    if bf16 then toLE 2 (if F32.isNan v then 0x7FC0 else encodeIeee specBf16 (F32.read v)) else toLE 4 v.toNat
  let body := toLE 4 x.m.toNat ++ toLE 4 x.l.toNat ++ o
  body ++ zeros (entryBytes dv bf16 - body.length)

/-- Reads a result entry (R152); BF16 elements are widened exactly (R144). -/
def entryAt (b : Bytes) (off dv : Nat) (bf16 : Bool) : Triple :=
  let m : W32 := BitVec.ofNat 32 (leAt b off 4)
  let l : W32 := BitVec.ofNat 32 (leAt b (off + 4) 4)
  { m, l, nan := F32.isNan m || F32.isNan l,
    o := (List.range dv).map fun i =>
      if bf16 then F32.write (decodeIeee specBf16 (leAt b (off + 8 + 2 * i) 2)) else BitVec.ofNat 32 (leAt b (off + 8 + 4 * i) 4) }

/-- A result header (Table 3-8). -/
structure ResultHeader where
  id : Nat
  status : Nat
  flags : Nat
  qtok : Nat
  heads : Nat
  dv : Nat
  eb : Nat
  attended : Nat
  omitted : Nat
  aux0 : Nat
  aux1 : Nat
deriving DecidableEq, Repr

/-- The 32 bytes of a result header. -/
def ResultHeader.bytes (h : ResultHeader) : Bytes :=
  toLE 8 h.id ++ BitVec.ofNat 8 h.status :: BitVec.ofNat 8 h.flags :: BitVec.ofNat 8 h.qtok :: BitVec.ofNat 8 h.heads
    :: toLE 2 h.dv ++ toLE 2 h.eb ++ toLE 4 h.attended ++ toLE 4 h.omitted ++ toLE 4 h.aux0 ++ toLE 4 h.aux1

/-- Reads a result header. -/
def ResultHeader.ofBlock (b : Bytes) : ResultHeader :=
  { id := leAt b 0 8, status := byteAt b 8, flags := byteAt b 9, qtok := byteAt b 10, heads := byteAt b 11,
    dv := leAt b 12 2, eb := leAt b 14 2, attended := leAt b 16 4, omitted := leAt b 20 4, aux0 := leAt b 24 4,
    aux1 := leAt b 28 4 }

/-! ## APPEND and SEAL (Table 5-1, R133) -/

/-- The fields of an APPEND header (Table 5-1). -/
structure AppendBlk where
  id : Nat
  handle : Nat
  layer : Nat
  mask : Bool
  at_ : Nat
  dfmt : Nat
  sr : Bool
  sealAfter : Bool
  first : Nat
  count : Nat
  profile : Nat
  maskLen : Nat
  epoch : Nat
  comp : Nat
deriving DecidableEq, Repr

/-- Reads an APPEND header. -/
def AppendBlk.ofBlock (b : Bytes) : AppendBlk :=
  let w := leAt b 16 4
  { id := blkId b, handle := leAt b 8 8, layer := bitsOf w 0 8, mask := bitOf w 8, at_ := bitsOf w 9 2, dfmt := bitsOf w 11 4,
    sr := bitOf w 15, sealAfter := bitOf w 16, first := leAt b 20 3, count := bitsOf (leAt b 24 4) 0 17,
    profile := leAt b 28 2, maskLen := bitsOf (leAt b 32 4) 0 17, epoch := leAt b 40 4, comp := leAt b 44 4 }

/-- Whether the block asks for a new conversation or mask object: ORIGIN and LOCAL/GEN, or SERIAL, all zero (R38, R142). -/
def AppendBlk.creating (a : AppendBlk) : Bool := isCreate a.handle

/-- Check 1 of Table 5-2. -/
def AppendBlk.check1 (b : Bytes) : Bool :=
  let a := AppendBlk.ofBlock b
  decide (64 ≤ b.length ∧ b.length ≤ blockMax ∧ a.at_ ≤ 1) && zbits b 16 4 17 15 && zbits b 20 4 24 8
  && zbits b 24 4 17 15 && zerosAt b 30 2 && zbits b 32 4 17 15 && zerosAt b 36 4 && zerosAt b 48 16
  && (if a.mask then
        decide (a.layer = 0 ∧ a.at_ = 1 ∧ a.dfmt = 0 ∧ a.first % 256 = 0 ∧ 1 ≤ a.count ∧ a.count ≤ 65536
          ∧ b.length = 64 + 32 * a.count ∧ a.profile = 0
          ∧ (if a.creating then 1 ≤ a.maskLen ∧ a.maskLen ≤ 65536 else a.maskLen = 0))
      else
        decide (a.dfmt ≤ 2 ∧ 1 ≤ a.count ∧ a.count ≤ 4096 ∧ a.maskLen = 0 ∧ (a.at_ = 0 → a.first = 0)
          ∧ (a.creating = false → a.profile = 0)))

/-- The result block of APPEND and SEAL (Table 5-3). -/
def appendResult (id status : Nat) (created : Bool) (sealed handle first next : Nat) : Bytes :=
  toLE 8 id ++ BitVec.ofNat 8 status :: BitVec.ofNat 8 (if created then 1 else 0) :: zeros 2 ++ toLE 4 sealed ++ toLE 8 handle
    ++ toLE 4 first ++ toLE 4 next

/-- The fields of a SEAL block (R133). -/
structure SealBlk where
  id : Nat
  conv : Nat
  layer : Nat
  all : Bool
  epoch : Nat
  comp : Nat
deriving DecidableEq, Repr

/-- Reads a SEAL block. -/
def SealBlk.ofBlock (b : Bytes) : SealBlk :=
  { id := blkId b, conv := leAt b 8 8, layer := byteAt b 16, all := bitOf (byteAt b 17) 0, epoch := leAt b 40 4,
    comp := leAt b 44 4 }

/-- Check 1 of a SEAL. -/
def SealBlk.check1 (b : Bytes) : Bool :=
  b.length == 64 && zbits b 17 1 1 7 && zerosAt b 18 22 && zerosAt b 48 16
    && (!(SealBlk.ofBlock b).all || (SealBlk.ofBlock b).layer == 0)

end Sys2Proof.Machine
end

