-- ==== Sys2Proof/Machine/Crypto.lean ====
section
/-! DEFINITION. Keys and protected forms: the derivation of partition keys (R303), data units and tweaks (R306, R307) and tags
(R308). -/
namespace Sys2Proof.Machine

/-- The 100 bytes derived from a partition key (R303): XTS data key, XTS tweak key, tag key, key check value. -/
def deriveKeys (tenant : Nat) (key : Bytes) : Bytes :=
  Sha256.hkdf key (("Psilu partition keys".toUTF8.data.toList.map fun c => BitVec.ofNat 8 c.toNat) ++ toLE 2 tenant) 100

/-- The derived bytes of a partition, empty where its slot is EMPTY. -/
def State.partKeys (s : State) (part : Nat) : Bytes :=
  match s.part? part, Map.find? s.sec.keys part with
  | some p, some k => deriveKeys p.tenant k.key
  | _, _ => []

/-- The key check value (R303). -/
def kcvOf (keys : Bytes) : Bytes := slice keys 96 4

/-- The 128-bit tweak, little-endian (R306). -/
def tweakOf (space handle unit : Nat) : Bytes := toLE 16 (handle + unit * 2 ^ 64 + space * 2 ^ 88)

/-- The ciphertext of one data unit. -/
def sealUnit (keys : Bytes) (space handle unit : Nat) (plain : Bytes) : Bytes :=
  Aes.xtsEncrypt (slice keys 0 64) (tweakOf space handle unit) plain

/-- The plaintext of one data unit. -/
def openUnit (keys : Bytes) (space handle unit : Nat) (cipher : Bytes) : Bytes :=
  Aes.xtsDecrypt (slice keys 0 64) (tweakOf space handle unit) cipher

/-- The tag of one data unit (R308): the leftmost 64 bits of the CMAC over the header and the ciphertext. -/
def tagOf (keys : Bytes) (space handle unit genv : Nat) (cipher : Bytes) : Bytes :=
  slice (Aes.cmac (slice keys 64 32) (toLE 8 handle ++ toLE 4 unit ++ toLE 4 space ++ toLE 8 genv ++ zeros 8 ++ cipher)) 0 8

/-- The 1 KiB units of a padded object, in order. -/
def unitsOf (b : Bytes) : List Bytes := (List.range (ceilDiv b.length 1024)).map fun k => slice b (1024 * k) 1024

/-- Whether a page's image is its BF16 tail (R132): it is open under HOLD. -/
def Page.inTail (p : Page) : Bool := p.hold && p.state == .opened

/-- The SPACE of a page's data units (Table 13-2): 1 for its BF16 tail, else 0. -/
def Page.space (p : Page) : Nat := if p.inTail then 1 else 0

/-- The plain bytes of a page as it stands: its stored form, or its BF16 tail while it is open under HOLD. -/
def Page.image (g : Geo) (h : Nat) (p : Page) : Bytes :=
  if p.inTail then tailImage g p.tail (Config.unwrittenSlot h) else pageImage g p.fmt p.params p.rows (Config.unwrittenSlot h)

/-- A page's ciphertext and then its tags (R186, R216, R307), as it stands in HBM, in a lower tier or on a peer. -/
def State.protectedPage (s : State) (h : Nat) (p : Page) : Bytes :=
  let keys := s.partKeys p.part
  let us := unitsOf (p.image (Geo.ofImage (s.image p.profile p.version)) h)
  let cs := (List.range us.length).map fun k => sealUnit keys p.space h k (us.getD k [])
  cs.flatten ++ ((List.range cs.length).flatMap fun k => tagOf keys p.space h k p.pgen (cs.getD k []))

/-- Reads a page's plain bytes back (the inverse of `pageImage`): its parameter area and its first `n` slots. -/
def unpackPage (g : Geo) (fmt n : Nat) (b : Bytes) : Bytes × Map Row :=
  let rb := rowBytes g fmt
  let sb := scaleBytes g fmt
  let row (i : Nat) : Row :=
    if g.dense then
      let eb := g.d * elemBits fmt / 8
      let ss := if fmt = 0xF then 0 else g.d / 32
      let kv := 256 * 2 * (eb + ss)
      let at_ (k o w : Nat) : Bytes := slice b (k * kv + o + i * w) w
      { elems := ((List.range g.kv).flatMap fun k => at_ k 0 eb) ++ ((List.range g.kv).flatMap fun k => at_ k (256 * eb) eb),
        scales := ((List.range g.kv).flatMap fun k => at_ k (512 * eb) ss)
          ++ ((List.range g.kv).flatMap fun k => at_ k (512 * eb + 256 * ss) ss) }
    else
      let half := i / 128 * 128 * (rb + sb)
      { elems := slice b (half + i % 128 * rb) rb, scales := slice b (half + 128 * rb + i % 128 * sb) sb }
  (slice b (256 * (rb + sb)) (paramBytes g fmt), (List.range n).map fun i => (i, row i))

/-- The plain bytes of a page from its ciphertext. -/
def openPage (keys : Bytes) (h units : Nat) (b : Bytes) : Bytes :=
  (List.range units).flatMap fun k => openUnit keys 0 h k (slice b (1024 * k) 1024)

/-- Whether the bytes of a page, ciphertext and then tags, pass their tag check under a SPACE, handle and generation (R311). -/
def tagsPass (keys : Bytes) (space h pgen units : Nat) (b : Bytes) : Bool :=
  (List.range units).all fun k =>
    tagOf keys space h k pgen (slice b (1024 * k) 1024) == slice b (1024 * units + 8 * k) 8

end Sys2Proof.Machine
end

