-- ==== Sys2Proof/Machine/Nand.lean ====
section
/-! DEFINITION. Writing into the NAND tier: packing (R216), programming a page's form and its MAP records (R221), and which block a
channel collects next (R222). -/
namespace Sys2Proof.Machine

/-- A page's NAND form (R216): its ciphertext, its tags and its sketch, which is encrypted as one unit without a tag (R306, R309). -/
def State.nandForm (s : State) (h : Nat) (p : Page) : Bytes :=
  s.protectedPage h p ++ slice (sealUnit (s.partKeys p.part) 2 h 0 p.sketch) 0 p.sketch.length

/-- Whether logical units `u` to `u + n − 1` are all free. -/
def Flash.runFree (f : Flash) (u n : Nat) : Bool :=
  decide (u + n ≤ f.capacity) && (List.range n).all fun k => !Map.has f.placed (u + k)

/-- The least and the greatest number of a list. -/
def leastOf (l : List Nat) : Option Nat := l.foldl (fun b u => match b with | some v => some (min u v) | none => some u) none
def greatestOf (l : List Nat) : Option Nat := l.foldl (fun b u => match b with | some v => some (max u v) | none => some u) none

/-- A run of `n` free logical units for a channel (log entry 25): the lowest in the sixteenth of the logical space that the channel packs
into first, so that what other channels write does not come between its forms, else the lowest anywhere. A form in a unit of its own
takes the highest of the sixteenth. -/
def Flash.findRun (f : Flash) (ch n : Nat) (own : Bool) : Option Nat :=
  let part := f.capacity / 16
  let mine (u : Nat) : Bool := decide (ch * part ≤ u ∧ u + n ≤ (ch + 1) * part)
  let used := Map.keys f.placed
  let cands := ((ch * part) :: 0 :: used.map (· + 1)).filter fun u => f.runFree u n
  let tops := (((ch + 1) * part - 1) :: used.map (· - 1)).filter fun u => f.runFree u n && mine u
  let first := if own then greatestOf tops else leastOf (cands.filter mine)
  match first with | some u => some u | none => leastOf cands

/-- The channel of R216: the fewest units queued, the lowest number on a tie. -/
def Flash.channel (f : Flash) : Nat :=
  (List.range 16).foldl (fun b c => if Map.getD f.queuedUnits c 0 < Map.getD f.queuedUnits b 0 then c else b) 0

/-- The packing point behind `e` bytes of a unit, in steps of 16 bytes: the next unit where this one is full. -/
def packAfter (u e : Nat) : Nat × Nat := if unitSize ≤ roundUp e 16 then (u + 1, 0) else (u, roundUp e 16)

/-- Where a form of `n` bytes goes on a channel (R216): at the packing point when the units it needs there are free, else in a run of its
own; a form below 16,384 bytes in a unit of its own. Its locator and the new packing point. -/
def Flash.place (f : Flash) (ch n : Nat) : Option (Locator × Option (Nat × Nat)) :=
  let put (u off : Nat) : Locator × Option (Nat × Nat) :=
    let k := ceilDiv (off + n) unitSize
    ({ unit := u, off := off / 16, units := k, channel := ch }, some (packAfter (u + k - 1) (off + n - (k - 1) * unitSize)))
  if n < unitSize then
    (f.findRun ch 1 true).map fun u => ({ unit := u, off := 0, units := 1, channel := ch }, Map.find? f.pack ch)
  else
    let fresh := (f.findRun ch (ceilDiv n unitSize) false).map fun u => put u 0
    match Map.find? f.pack ch with
    | some (u, off) =>
      let k := ceilDiv (off + n) unitSize
      if (if off = 0 then f.runFree u k else f.runFree (u + 1) (k - 1)) then some (put u off) else fresh
    | none => fresh

/-- Writes a form of `n` bytes (R216, R221): its units are programmed and their MAP records pend. -/
def Flash.write (f : Flash) (n : Nat) : Option (Locator × Flash) :=
  let ch := f.channel
  match f.place ch n with
  | none => none
  | some (l, pack) =>
    let step (acc : Option Flash) (k : Nat) : Option Flash := acc.bind fun g => (g.program ch false (l.unit + k)).map fun r =>
      { (r.2.journal .map (l.unit + k) r.1 l.tag) with
        placed := Map.insert r.2.placed (l.unit + k) (Map.getD r.2.placed (l.unit + k) [] ++ [(l.tag, r.1)]) }
    ((List.range l.units).foldl step (some f)).map fun g =>
      (l, { g with queuedUnits := Map.put g.queuedUnits ch (Map.getD g.queuedUnits ch 0 + l.units) 0,
                   pack := match pack with | some p => Map.insert g.pack ch p | none => Map.erase g.pack ch })

/-- Whether updating the map for a copy would exceed the bound on dirty segments (R219). -/
def Flash.dirtyRoom (f : Flash) (l : Locator) : Bool :=
  let segs := (List.range l.units).map fun k => (l.unit + k) / segEntries
  decide (f.segDirty.length + (segs.eraseDups.filter fun g => !Map.has f.segDirty g).length ≤ 4096)

/-! ## The block a channel collects (R222) -/

/-- The mapped units of a block. -/
def Flash.unitsIn (f : Flash) (b : Nat) : List Nat := (f.map.filter fun kv => kv.2.block == b).map (·.1)

/-- Whether a block holds a unit that is programmed and not mapped yet. -/
def Flash.unsettled (f : Flash) (b : Nat) : Bool :=
  f.placed.any fun kv => kv.2.any fun x => blockOfPun f x.2 == b && (match Map.find? f.map kv.1 with | some e => e.pun != x.2 | none => true)

/-- Blocks of a channel that collection may take. -/
def Flash.collectable (f : Flash) (ch : Nat) : List (Nat × Block) :=
  f.blocks.filter fun kv =>
    blockChannel kv.1 == ch && !kv.2.free && !kv.2.openB && !kv.2.bad && !kv.2.erasing && !kv.2.isMap && !f.unsettled kv.1

/-- The victim of R222: the fewest valid units, the oldest-written on a tie. -/
def Flash.victim (f : Flash) (ch : Nat) : Option Nat :=
  ((f.collectable ch).foldl (fun (b : Option (Nat × Block)) kv => match b with
    | some x => if kv.2.valid < x.2.valid ∨ (kv.2.valid = x.2.valid ∧ kv.2.written < x.2.written) then some kv else b
    | none => some kv) none).map (·.1)

/-- Whether programs for migrations wait behind a channel's collection (R222): its free blocks are below LOW / 2, and it has a block from
which collection gains room. -/
def Flash.programsWait (f : Flash) (ch low : Nat) : Bool :=
  decide (2 * f.channelFree ch < low) && (Map.has f.moves ch || (match f.victim ch with
    | some b => decide ((f.block b).valid < f.pagesPerBlock)
    | none => f.blocks.any fun kv => blockChannel kv.1 == ch && kv.2.erasing))

end Sys2Proof.Machine
end

