-- ==== Sys2Proof/Machine/Migrate.lean ====
section
/-! DEFINITION. Moving sealed pages between tiers (R186, R187, R194 to R206): starting a promotion, a demotion, a loan or a
restoration, sending FETCH, and releasing a source copy. -/
namespace Sys2Proof.Machine

/-- The header fields of a page's profile version. -/
def State.pageGeo (s : State) (p : Page) : Geo := Geo.ofImage (s.image p.profile p.version)

/-- Data units of a page's image (R307): its stored form, or its BF16 tail while it is open under HOLD (R132). -/
def State.unitsIn (s : State) (p : Page) : Nat :=
  if p.inTail then ceilDiv (tailBytes (s.pageGeo p)) 1024 else cipherBytes (s.pageGeo p) p.fmt / 1024

/-- Bytes of a page's ciphertext and tags (R307). -/
def State.carried (s : State) (p : Page) : Nat := 1032 * s.unitsIn p

/-- Counts a NAND refusal (R207). -/
def refuseNand (s : State) : State := setCause pgTier 2 (s.bump pgTier 0x084)

/-! ## Sources released -/

/-- Releases the source copy that a completed migration left, once no request that bound it there is in flight and no pod holds
it (R194, R50). -/
def releaseSource (h : Nat) (s : State) : State :=
  match Map.find? s.pages h with
  | none => s
  | some p =>
    if p.srcHeld ∧ p.srcReaders = [] ∧ p.holders = 0 then
      let s1 := if p.srcTier = 2 then freeGrant h s
        else if p.srcTier = 1 then s.setFlash (match p.shadow with | some l => s.flash.free l | none => s.flash)
        else s
      s1.updPage h fun q =>
        let q1 := if p.srcTier = 0 then q.freeHbm else if p.srcTier = 1 then { q with shadow := none } else { q with lend := none }
        { q1 with srcHeld := false, srcTier := 0, rows := if q.state = .absent then [] else q.rows,
                  tail := if q.state = .absent then [] else q.tail }
    else s

/-- Descends a page whose shadow is valid (R187): in one step, writing nothing to NAND. -/
def descend (h : Nat) (s : State) : State :=
  releaseSource h ((countUp pgTier 0x060 1 s).updPage h fun p =>
    { p with state := .sealed, loc := p.shadow, shadow := none, srcTier := p.tier, srcHeld := true, srcReaders := p.readers,
             tier := 1, target := none, lend := p.lend })

/-! ## NAND -/

/-- Frees shadows of HBM-resident pages, oldest promotion first, until a form of `n` bytes finds room (R206); `fuel` bounds the
number freed. -/
def makeNandRoom (n : Nat) : Nat → State → State
  | 0, s => s
  | fuel + 1, s =>
    if (s.flash.write n).isSome then s
    else
      let older (b : Option (Nat × Page)) (kv : Nat × Page) : Option (Nat × Page) :=
        if kv.2.tier = 0 ∧ kv.2.shadow.isSome then
          match b with
          | some c => if kv.2.promoTime < c.2.promoTime then some kv else b
          | none => some kv
        else b
      match s.pages.foldl older none with
      | none => s
      | some (h, p) =>
        let s1 := s.setFlash (match p.shadow with | some l => s.flash.free l | none => s.flash)
        makeNandRoom n fuel (s1.updPage h fun q => { q with shadow := none })

/-- Programs a page's NAND form (R216); none where there is no room for it. -/
def programForm (h : Nat) (p : Page) (s : State) : Option State :=
  let n := nandBytes (s.pageGeo p) p.fmt
  let s1 := makeNandRoom n s.pages.length s
  (s1.flash.write n).map fun r =>
    let s2 := countUp pgFlm 0x090 (r.1.units * unitSize) ((s1.setFlash r.2).updPage h fun q => { q with loc := some r.1 })
    if p.hbmBlocks = 0 then s2 else tierAccess p true n s2

/-- Starts writing a page's NAND form; the status of Table 8-5 where the tier refuses it. The program waits behind a collection that
needs the channel (R222). -/
def writeNand (h : Nat) (p : Page) (s : State) : Status × State :=
  if s.flash.st = 0 then (.invalidMode, refuseNand s)
  else if s.flash.st = 2 then (.worn, refuseNand s)
  else
    let begin_ (t : State) : State := t.updPage h fun q => { q with state := .migrating, dest := 1, durable := false, srcTier := p.tier }
    if s.flash.programsWait s.flash.channel (s.field pgFlm 0x064 0 8) then (.ok, begin_ (s.updPage h fun q => { q with loc := none }))
    else
      let s1 := makeNandRoom (nandBytes (s.pageGeo p) p.fmt) s.pages.length s
      match programForm h p s1 with
      | some t => (.ok, begin_ t)
      | none => (.full, refuseNand s1)

/-! ## FETCH -/

/-- Sends a FETCH for a page to a node (R202): a receive region for its ciphertext and tags with the result block behind them, and
the block as a CMD SEND on the Keeper connection; none without an OPEN connection or a region. -/
def sendFetch (node grant off len : Nat) (handle : Option Nat) (page why req item : Nat) (s : State) : Option State :=
  match s.keeperConn node with
  | none => none
  | some conn =>
    match register 2 0 (roundUp len 64 + 64) keeperOwner conn 0 s with
    | none => none
    | some (idx, s1) =>
      let (n, s2) := s1.draw
      let blk := toLE 8 (Config.freeChoice n) ++ toLE 4 grant ++ toLE 4 off ++ toLE 4 len ++ toLE 4 (s2.rkey idx) ++ toLE 8 0
        ++ toLE 8 (handle.getD 0) ++ zeros 24
      let slot := match Map.find? s.pages page with | some p => p.slot | none => 16
      let s3 := meter slot 4 blk.length
        (sendMessage conn (keeperMsg 1 false true 4 blk (s2.rkey idx) (roundUp len 64)) s2)
      some { s3 with tier := { s3.tier with fetches := s3.tier.fetches ++ [{ region := idx, page, why, req, item }] } }

/-- FETCHes a lent page from its lender by its lend record (R198). -/
def fetchLent (h why req item : Nat) (s : State) : Option State :=
  (Map.find? s.pages h).bind fun p => p.lend.bind fun l =>
    sendFetch l.lender l.grant l.off (s.carried p) none h why req item s

/-- Query items that waited for a page are dispatched again (R197). -/
def wakeItems (h : Nat) (s : State) : State :=
  let wake (it : Item) : Item := if it.page = h ∧ it.state = .fetching then { it with state := .waiting } else it
  { s with reqs := s.reqs.map fun kv => (kv.1, { kv.2 with items := kv.2.items.map wake }) }

/-- The mirror store, as GRANT_ID (R350). -/
def mirrorStore : Nat := 0xFFFFFFFE

/-- Whether a restoration's FETCH runs for a page. -/
def State.restoresNow (s : State) (h : Nat) : Bool := s.tier.fetches.any fun f => f.page == h && f.why == 2

/-- Sends the FETCH that restores a page from its mirror partner (R350), where the partner is connected and none runs already. -/
def askPartner (h : Nat) (s : State) : State :=
  match Map.find? s.pages h with
  | none => s
  | some p => match (s.part? p.part).bind (·.partner) with
    | some node => if s.restoresNow h then s else (sendFetch node mirrorStore 0 (s.carried p) (some h) h 2 0 0 s).getD s
    | none => s

/-- Restores a lost RETAINED page (R204, R336): from its shadow, else from the mirror partner by FETCH into HBM; where no partner is
connected or no HBM is free it stays MIGRATING, waiting. -/
def beginRestore (h : Nat) (s : State) : State :=
  match Map.find? s.pages h with
  | none => s
  | some p =>
    match p.shadow with
    | some l =>
      s.updPage h fun q => { q with state := .migrating, restoring := true, dest := 1, loc := some l, shadow := none,
                                    durable := true, srcTier := 3, lend := none, target := none }
    | none =>
      let need := blocksOf (storedBytes (s.pageGeo p) p.fmt)
      let here := p.blocks != 0 && !(s.region p.region).retired
      let r := if here then p.region else s.bestRegion p.part
      let got := if here then p.blocks else need
      let room := here || decide (need ≤ s.partFree p.part r)
      let s1 := s.updPage h fun q =>
        { q with state := .migrating, restoring := true, lost := false, dest := 0, durable := false, srcTier := 3, lend := none,
                 target := none, region := if room then r else q.region, blocks := if room then got else q.blocks }
      if room then askPartner h s1 else s1

/-- An OPEN page whose region has been retired takes its blocks in the region of R28, if there is room (log entry 137): its own has
no HBM and no pod to seal it (R343). -/
def rehome (h : Nat) (s : State) : State :=
  match Map.find? s.pages h with
  | none => s
  | some p =>
    let r := s.bestRegion p.part
    if p.state = .opened ∧ (s.region p.region).retired ∧ p.hbmBlocks ≤ s.partFree p.part r then
      s.updPage h fun q => { q with region := r, lastRegion := r }
    else s

/-- Restores a damaged OPEN page from its partner's image, in the HBM it has: an open page never leaves its region (R28), and it stays
OPEN (Table 2-6) until its seal sequence, which waits for the image. `first` is the first slot lost here. -/
def restoreOpen (h first : Nat) (s : State) : State :=
  askPartner h (s.updPage h fun q => { q with restoring := true, lost := false, durable := false, lostFrom := first })

/-- Cuts an OPEN page to its first `n` slots, to be sealed there; its stream goes on at the next entry (R43, R336). -/
def cutPage (h n : Nat) (p : Page) (s : State) : State :=
  let s1 := s.updPage h fun q =>
    { q with fill := min q.fill n, rows := Map.filterKV q.rows fun k _ => decide (k < n), tail := Map.filterKV q.tail fun k _ => decide (k < n),
             sealing := true }
  s1.updStream p.conv p.layer fun x => { x with next := if x.next / 256 = p.entry then roundUp x.next 256 else x.next }

/-- A lent page is lost (R204): the requests that waited for its bytes are dispatched again, and meet what became of it. -/
def lentLost (h : Nat) (s : State) : State :=
  match Map.find? s.pages h with
  | none => s
  | some p =>
    let s1 := freeGrant h (setCause pgTier 3 (s.bump pgTier 0x08C))
    wakeItems h (if p.retained then beginRestore h s1 else toAbsent h s1)

/-! ## Promotion -/

/-- Whether a page may start a migration: SEALED or LENT, with no source copy of an earlier one still held (R185, R194). -/
def Page.movable (p : Page) : Bool := (p.state == .sealed || p.state == .lent) && !p.srcHeld

/-- Starts a promotion to HBM (R188, R197): none where the partition's share has no room, or the FETCH of a lent page cannot be sent. -/
def beginPromote (h : Nat) (s : State) : Option State :=
  match Map.find? s.pages h with
  | none => none
  | some p =>
    let need := blocksOf (storedBytes (s.pageGeo p) p.fmt)
    let r := s.bestRegion p.part
    if s.partFree p.part r < need then none
    else
      let s1 := s.updPage h fun q =>
        { q with state := .migrating, dest := 0, srcTier := p.tier, region := r, blocks := need, durable := decide (p.tier ≠ 2) }
      if p.tier = 2 then fetchLent h 1 0 0 s1 else some s1

/-! ## Demotion -/

/-- Starts a demotion to NAND, or carries it out where a valid shadow makes it free (R187, R203): `ok`, or the status of Table
8-5; BUSY where the FETCH of a lent page cannot be sent (log entry 136). -/
def beginDemote (h : Nat) (s : State) : Status × State :=
  match Map.find? s.pages h with
  | none => (.absent, s)
  | some p =>
    if p.shadow.isSome then (.ok, descend h s)
    else if p.tier = 2 then
      if s.flash.st = 0 then (.invalidMode, refuseNand s)
      else if s.flash.st = 2 then (.worn, refuseNand s)
      else
        let s1 := s.updPage h fun q => { q with state := .migrating, dest := 1, srcTier := 2, durable := false, loc := none }
        match fetchLent h 1 0 0 s1 with
        | some s2 => (.ok, s2)
        | none => (.busy, s)
    else writeNand h p s

/-! ## Lending -/

/-- Whether a page may be lent (R205). -/
def State.lendable (s : State) (p : Page) : Bool :=
  !p.retained || p.shadow.isSome ||
    (match s.stream? p.conv p.layer with | some st => st.mirror != 0 && p.mirrored | none => false)

/-- Lowest offset in a grant, in 4 KiB units, where `n` units are free. -/
def GrantIn.room (g : GrantIn) (n : Nat) : Option Nat :=
  (0 :: g.used.map fun u => u.1 + u.2.1).foldl (fun b o =>
    if o + n ≤ g.mib * 256 ∧ g.used.all (fun u => decide (u.1 + u.2.1 ≤ o ∨ o + n ≤ u.1)) then
      (match b with | some v => some (min v o) | none => some o)
    else b) none

/-- The Keeper asks a lender for a grant (R200, Table 8-5): a peer whose Beacon says LEND or MIXED, not asked already; the
amount is the Keeper's choice (log entry 26). -/
def askGrant (s : State) : State :=
  let able (kv : Nat × Peer) : Bool :=
    (kv.2.role == 2 || kv.2.role == 3) && (s.keeperConn kv.1).isSome && !s.tier.asked.any fun a => a.1 == kv.1
  match List.find? able s.res.peers with
  | none => s
  | some (node, _) =>
    match s.keeperConn node with
    | none => s
    | some conn =>
      match register 2 0 64 keeperOwner conn 0 s with
      | none => s
      | some (idx, s1) =>
        let (n, s2) := s1.draw
        let blk := toLE 8 (Config.freeChoice n) ++ [0, 0, 0, 0] ++ toLE 4 0 ++ toLE 4 (Config.freeChoice (n + 1) % 65536 + 1)
          ++ zeros 44
        let s3 := sendMessage conn (keeperMsg 1 false true 4 blk (s2.rkey idx) 0) { s2 with fresh := n + 2 }
        { s3 with tier := { s3.tier with asked := s3.tier.asked ++ [(node, conn, idx)] } }

/-- Starts a loan (R189, R192): the first grant with room takes the page (log entry 26); false where none has, and the Keeper
then asks for one. -/
def beginLend (h : Nat) (s : State) : Bool × State :=
  match Map.find? s.pages h with
  | none => (false, s)
  | some p =>
    let len := s.carried p
    let n := ceilDiv len 4096
    let fits (g : GrantIn) : Bool := !g.reclaim && (g.room n).isSome && (s.keeperConn g.lender).isSome
    match s.tier.grantsIn.find? fits with
    | none => (false, askGrant s)
    | some g =>
      match g.room n, s.keeperConn g.lender with
      | some off, some conn =>
        let mark (x : GrantIn) : GrantIn :=
          if x.lender = g.lender ∧ x.grant = g.grant then { x with used := x.used ++ [(off, n, h)], began := true } else x
        let s1 : State := { s with tier := { s.tier with grantsIn := s.tier.grantsIn.map mark } }
        let s2 := (writeMeta p.part 2 h s1).updPage h fun q =>
          { q with state := .migrating, dest := 2, srcTier := p.tier, durable := false,
                   lend := some { lender := g.lender, grant := g.grant, off, pgen := p.pgen } }
        let o : Outgoing := { keeperMsg 2 true false 4 (s.protectedPage h p) g.rkey (off * 4096) with page := h }
        (true, (if p.hbmBlocks = 0 then id else tierAccess p true len) (meter p.slot 4 len (sendMessage conn o s2)))
      | _, _ => (false, s)

/-- Counts a target not carried out (R190). -/
def skipTarget (s : State) : State := s.bump pgTier 0x090

end Sys2Proof.Machine
end

