-- ==== Sys2Proof/Machine/Query.lean ====
section
/-! DEFINITION. QUERY (R57 to R86): its checks (Table 3-2), the pages and unit sets it binds (R61, R64, R65), and its result
(R81 to R83). -/
namespace Sys2Proof.Machine

/-! ## Attended slots -/

/-- A mask bit of a mask object (R74): unlisted segments are zero. -/
def MaskObj.bit (m : MaskObj) (p : Nat) : Bool :=
  match Map.find? m.segs (p / 256) with
  | some seg => bitOf (byteAt seg (p % 256 / 8)) (p % 8)
  | none => false

/-- Whether slot position `p` is in the range with its mask bit 1 (R72, R73). -/
def State.maskBit (s : State) (q : Query) (blk : Bytes) (p : Nat) : Bool :=
  decide (q.start ≤ p ∧ p < q.start + q.len) &&
    (if q.mask = 0 then true
     else if q.mask = 1 then q.inlineBit blk p
     else match Map.find? s.masks q.maskObj with | some m => m.bit p | none => false)

/-- The attended slots of a page-list entry of which `fill` are counted (R72). -/
def State.attended (s : State) (q : Query) (blk : Bytes) (entry fill : Nat) : List Nat :=
  (List.range fill).filter fun j => s.maskBit q blk (slotPos entry j)

/-- The attended slots of a page-list entry of a query: as its mask segment was read when the first of the entry's items was
dispatched, so that every unit of the page sees one segment (R75, R143). -/
def State.entrySlots (s : State) (r : Req) (entry fill : Nat) : List Nat :=
  match Map.find? r.seen entry with
  | some js => js.filter (· < fill)
  | none => s.attended (Query.ofBlock r.blk) r.blk entry fill

/-- Reads the mask segment of an entry for a query, once. -/
def seeMask (i entry : Nat) (s : State) : State :=
  s.updReq i fun r =>
    if (Query.ofBlock r.blk).mask ≠ 2 ∨ Map.has r.seen entry then r
    else { r with seen := Map.insert r.seen entry (s.attended (Query.ofBlock r.blk) r.blk entry 256) }

/-- The attended slots of an item: those of its page, or of its half (R65). -/
def State.itemSlots (s : State) (r : Req) (it : Item) (fill : Nat) : List Nat :=
  let q := Query.ofBlock r.blk
  (s.entrySlots r it.entry fill).filter fun j =>
    if q.path = 2 ∨ it.slice = 2 then true else if it.slice = 0 then decide (j < 128) else decide (128 ≤ j)

/-! ## Checks -/

/-- Whether a profile image permits a read path (Table 3-3). -/
def pathOk (path : Nat) (g : Geo) (img : Bytes) : Bool :=
  if path = 2 then g.dense
  else !g.dense && (path == 1 || !hasValueStage (imgProgram img))

/-- Check 7 (R76). -/
def selPermitted (q : Query) (img : Bytes) : Bool :=
  q.sel == 0 || (q.path != 1 && !(imgProgram img).any fun st => st.op == 0x17)

/-- Check 8 (R74). -/
def State.maskOk (s : State) (q : Query) : Bool :=
  q.mask != 2 ||
    (match Map.find? s.masks q.maskObj with
     | some m => !m.deleted && hTenant q.maskObj == hTenant q.conv && decide (q.start + q.len ≤ m.len * 256)
     | none => false)

/-- First and last page-list entries of the range. -/
def Query.firstEntry (q : Query) : Nat := q.start / 256
def Query.lastEntry (q : Query) : Nat := (q.start + q.len - 1) / 256

/-- The pages of the range, in page-list order. -/
def State.rangePages (s : State) (q : Query) : List (Nat × Nat × Page) :=
  match s.stream? q.conv q.layer with
  | none => []
  | some st => st.entries.filterMap fun kv =>
      if q.firstEntry ≤ kv.1 ∧ kv.1 ≤ q.lastEntry then (Map.find? s.pages kv.2).map fun p => (kv.1, kv.2, p) else none

/-- The entries that make a query ABSENT (R51): an ABSENT page, or a refill not complete, with a mask bit set in the entry's
slots. -/
def State.absentEntries (s : State) (q : Query) (blk : Bytes) : List Nat :=
  ((s.rangePages q).filter fun x =>
    (x.2.2.state == .absent || x.2.2.refill) && s.attended q blk x.1 256 != []).map (·.1)

/-! ## Binding -/

/-- Whether a page, bound in a state, is read from its BF16 tail (R31, R141). -/
def readsTail (p : Page) (opened : Bool) : Bool := opened && p.hold

/-- The items of a query: every pairing of a page it binds, or of a slice of it, with a unit set (R64, R65). -/
def bindItems (q : Query) (g : Geo) (pages : List (Nat × Nat × Page)) : List Item :=
  let opn (p : Page) : Bool := p.state == .opened
  let forms := pages.map fun x => (x.2.2.fmt, readsTail x.2.2 (opn x.2.2))
  let sets := setShapes g q.path q.qtok (kvPerSlice g forms)
  pages.flatMap fun x =>
    let p := x.2.2
    let slices := if q.path = 2 then [2] else latentSlices g p.fmt (readsTail p (opn p))
    (List.range sets.length).flatMap fun k => slices.map fun sl =>
      { Item.none with
        entry := x.1, page := x.2.1, region := p.lastRegion, set := k, slice := sl, state := .waiting, fill := p.fill, opened := opn p }

/-- The unit sets of a request, as its bound pages shaped them. -/
def State.reqSets (s : State) (r : Req) (q : Query) (g : Geo) : List SetShape :=
  let forms := r.items.filterMap fun it =>
    (Map.find? s.pages it.page).map fun p => (p.fmt, readsTail p it.opened)
  setShapes g q.path q.qtok (kvPerSlice g forms)

/-! ## Results -/

/-- The result of a query that did not end OK: a header without entries (R81), its HEADS, DV and ENTRY_BYTES zero (log entry 119). -/
def queryRefusal (b : Bytes) (st : Status) (aux0 aux1 : Nat) : Bytes :=
  let q := Query.ofBlock b
  ResultHeader.bytes { id := q.id, status := st.code, flags := 0, qtok := q.qtok, heads := 0, dv := 0, eb := 0, attended := 0,
                       omitted := 0, aux0, aux1 }

/-- The entries of a query's result, token-major then head (R82): combined, and normalised where OUTFORM is 1 (R83, R145). -/
def State.resultEntries (r : Req) (q : Query) (g : Geo) (img : Bytes) : List Triple :=
  let prog := imgProgram img
  (List.range q.qtok).flatMap fun t => (List.range g.h).map fun h =>
    let x := (Map.find? r.combined (t * 128 + h)).getD (emptyTriple g.outDim)
    if q.normalised ∧ !x.isEmpty then normalise (finalStages img prog h x) else x

/-- Page-list entries that were computed: those of items with work done. -/
def Req.computedEntries (r : Req) : Nat :=
  ((r.items.filter fun it => it.state == .done && it.fill != 0).map (·.entry)).eraseDups.length

/-- The result block of a query that ends OK (R81, Table 3-8). -/
def State.queryResult (s : State) (r : Req) : Bytes :=
  let q := Query.ofBlock r.blk
  let img := s.image r.profile r.version
  let g := Geo.ofImage img
  let es := State.resultEntries r q g img
  let flag (b : Bool) (k : Nat) : Nat := if b then 2 ^ k else 0
  let hdr := ResultHeader.bytes
    { id := r.id, status := 0, qtok := q.qtok, heads := g.h, dv := g.outDim, eb := entryBytes g.outDim q.bf16,
      flags := flag q.normalised 0 + flag (es.any Triple.isEmpty) 1 + flag (q.sel != 0) 2 + flag r.capped 3 + flag r.gathered 4
        + flag (es.any (·.nan)) 5,
      attended := r.computedEntries, omitted := r.pagesOmitted, aux0 := r.aux0, aux1 := r.aux1.toNat }
  hdr ++ es.flatMap (entryOf g.outDim q.bf16)

/-- Commits a query OK. -/
def commitQuery (i : Nat) (s : State) : State :=
  match Map.find? s.reqs i with
  | some r => commitReq i .ok (s.queryResult r) s
  | none => s

/-- Commits a query with another status (R81). -/
def failQuery (i : Nat) (st : Status) (aux0 aux1 : Nat) (s : State) : State :=
  match Map.find? s.reqs i with
  | some r => commitReq i st (queryRefusal r.blk st aux0 aux1) s
  | none => s

/-- Ends a query that meets a page gone ABSENT after its acceptance (R51): with the first such entry of its range and their number. -/
def failAbsent (i entry : Nat) (s : State) : State :=
  match Map.find? s.reqs i with
  | none => s
  | some r =>
    match s.absentEntries (Query.ofBlock r.blk) r.blk with
    | e :: es => failQuery i .absent e (es.length + 1) s
    | [] => failQuery i .absent entry 1 s

/-- Regions a query still expects a partial from: those with an item that selection left in (R79, R159). -/
def Req.regions (r : Req) : List Nat :=
  ((r.items.filter fun it => it.state != .omitted).map (·.region)).eraseDups

/-! ## QUERY -/

/-- Accepts a query (R61): binds its profile, its pages and their states. With no page to dispatch it commits at once. -/
def acceptQuery (src : Src) (blk : Bytes) (part : Nat) (c : Conv) (slot : ProfSlot) (s : State) : State :=
  let q := Query.ofBlock blk
  let g := Geo.ofImage slot.img
  let pages := (s.rangePages q).filter fun x => x.2.2.state != .absent && !x.2.2.refill
  let r : Req := { Req.initial .query q.id src (s.masterOf src) (some part) (s.chargeSlot q.comp) blk with
    deadline := s.deadlineOf q.deadline, conv := q.conv, layer := q.layer, profile := c.profile, version := slot.ver,
    items := bindItems q g pages, scanned := q.sel == 0, heads := g.h, dv := g.outDim }
  let (i, s1) := addReq r s
  let s2 := pages.foldl (fun t x => t.updPage x.2.1 fun p => { p with readers := p.readers ++ [i] }) s1
  if r.items = [] then commitQuery i s2 else s2

/-- QUERY: the checks of Table 3-2 in order (R60). -/
def runQuery (src : Src) (blk : Bytes) (s : State) : State :=
  let q := Query.ofBlock blk
  let stop (st : Status) (t : State) : State := finishBlk opQuery blk src q.id st t 0 0 (s.chargeSlot q.comp)
  if !Query.check1 blk then stop .invalidMode s
  else match s.authorise src (hTenant q.conv) 1 with
  | none => finishBlk opQuery blk src q.id .denied (deny (s.masterOf src) (s.tenantTarget (hTenant q.conv)) s)
  | some part =>
    if !s.keyed part then stop .denied s
    else withComp opQuery src q.id q.comp q.epoch (some q.conv) (s.heldConv q.conv).isSome (some part)
        (s.deadlineOf q.deadline) blk (fun t =>
      match t.heldConv q.conv with
      | none => stop .absent t
      | some c =>
        match t.resident c.profile with
        | none => stop .invalidMode t
        | some (_, slot) =>
          let g := Geo.ofImage slot.img
          if g.layers ≤ q.layer ∨ blk.length ≠ q.fullLen g then stop .invalidMode t
          else if !pathOk q.path g slot.img ∨ !selPermitted q slot.img ∨ !t.maskOk q then stop .invalidMode t
          else if !t.entryFree (some part) ∨ t.duplicate (t.masterOf src) q.id then stop .busy t
          else if t.frozen q.conv then
            holdFrozen opQuery src q.id (some part) (t.chargeSlot q.comp) (t.deadlineOf q.deadline) q.conv blk t
          else match t.absentEntries q blk with
            | [] => acceptQuery src blk part c slot t
            | e :: es => finishBlk opQuery blk src q.id .absent t e (es.length + 1) (s.chargeSlot q.comp)) s

/-- QUERY. -/
def execQuery (src : Src) (blk : Bytes) (s : State) : Host.Outcome State Fault Refusal :=
  ok (serving opQuery src blk (runQuery src blk) s)

/-! ## Selection (R76 to R80) -/

/-- Inserts into a list that falls in bound, ties to the higher entry first (R77). -/
def insertBound (x : Nat × W32) : List (Nat × W32) → List (Nat × W32)
  | [] => [x]
  | y :: ys => if F32.lt y.2 x.2 ∨ (!F32.lt x.2 y.2 ∧ y.1 < x.1) then x :: y :: ys else y :: insertBound x ys

/-- Candidates from the highest bound down. -/
def sortBounds (xs : List (Nat × W32)) : List (Nat × W32) := xs.foldl (fun a x => insertBound x a) []

/-- Lane MACs and work units of the absorption of a LATENT request (Table 3-4). -/
def absorbCost (g : Geo) (qtok : Nat) : Nat × Nat := (qtok * g.h * g.cc * g.dk, qtok * g.h * ceilDiv g.cc 64)

/-- Charges work units to a request: MACs to its slot (R366) and units to a pod (R421). -/
def chargeWork (slot macs units region pod : Nat) (s : State) : State :=
  countUp (pgPod region pod) 0x070 units (meter slot 3 macs s)

/-- SKETCH_SCAN: the scan of a query's candidates and the selection it fixes (R77 to R79). -/
def sketchScan (i : Nat) (s : State) : State :=
  match Map.find? s.reqs i with
  | none => s
  | some r =>
    if r.kind ≠ .query ∨ r.scanned ∨ r.status.isSome then s
    else
      let q := Query.ofBlock r.blk
      let img := s.image r.profile r.version
      let g := Geo.ofImage img
      let prog := imgProgram img
      let entries := (r.items.map fun it => (it.entry, it.page, it.opened)).eraseDups
      let cand := entries.filterMap fun e => (Map.find? s.pages e.2.1).bind fun p =>
        if s.attended q r.blk e.1 p.fill = [] then none else some (e.1, e.2.2, p)
      let forced (e : Nat) : Bool := decide (e < q.sink) || decide (q.lastEntry < e + q.window)
      let unbounded (x : Nat × Bool × Page) : Bool := x.2.1 || !x.2.2.sketchHeld
      let bound (x : Nat × Bool × Page) : W32 :=
        maxBound ((List.range q.qtok).flatMap fun t => (List.range g.h).filterMap fun h =>
          boundOf q.path g img r.layer { head := h, qpos := qposOf r.blk t, q := q.elems r.blk g t h, program := prog } x.1 x.2.2.sketch)
      let bounded := (cand.filter fun x => !unbounded x).map fun x => (x.1, bound x)
      let others := sortBounds (bounded.filter fun x => !forced x.1)
      let bmax := maxBound ((bounded.map (·.2)).filter finite32)
      let above (t : W32) : List (Nat × W32) := others.filter fun x => F32.lt t x.2
      let qualified := if q.sel = 1 then others else if q.sel = 2 then above q.thresh else above (F32.sub bmax q.thresh)
      let most := if q.sel = 1 then q.topp else 4096
      -- R139: a page whose bound is +∞ is always picked, beyond the count too
      let picked := qualified.take most ++ (qualified.drop most).filter fun x => x.2 == F32.posInf
      let chosen (e : Nat) : Bool := picked.any fun x => x.1 == e
      let left := others.filter fun x => !chosen x.1
      let isLeft (e : Nat) : Bool := left.any fun x => x.1 == e
      let isCand (e : Nat) : Bool := cand.any fun x => x.1 == e
      let item (it : Item) : Item :=
        if isLeft it.entry then { it with state := .omitted }
        else if isCand it.entry then it else { it with state := .done, fill := 0 }
      let s1 := s.updReq i fun x =>
        { x with scanned := true, items := x.items.map item, pagesOmitted := left.length,
                 bounds := (bounded.map fun b => (b.1, b.2)).foldl (fun m b => Map.insert m b.1 b.2) [],
                 capped := decide (q.sel ≠ 1 ∧ 4096 < qualified.length),
                 aux0 := (cand.filter fun x => unbounded x && !forced x.1).length,
                 aux1 := maxBound (left.map (·.2)) }
      let home := match (s.stream? r.conv r.layer).bind (·.home) with | some h => h | none => 0
      let s2 := if q.path = 0 then
          match s1.choosePod home r.part r.profile r.version (fun _ => true) with
          | some pod => chargeWork r.slot (absorbCost g q.qtok).1 (absorbCost g q.qtok).2 home pod s1
          | none => meter r.slot 3 (absorbCost g q.qtok).1 s1
        else s1
      match Map.find? s2.reqs i with
      | some x => if x.items.all fun it => it.state == .omitted || it.state == .done then commitQuery i s2 else s2
      | none => s2

/-- SKETCH_SCAN. -/
def execSketchScan (req : Nat) (s : State) : Host.Outcome State Fault Refusal := ok (whenReady (sketchScan req) s)

end Sys2Proof.Machine
end

