-- ==== Sys2Proof/Machine/Attend.lean ====
section
/-! DEFINITION. The work of a query in its regions: dispatch of pages to pods (R14, R18, R62 to R66, R197), gathering (R84 to R86),
the work units themselves (R67 to R71) and the region partials (R69, R144, R159). -/
namespace Sys2Proof.Machine

/-- A request that is still being worked on. -/
def State.live (s : State) (i : Nat) : Option Req :=
  match Map.find? s.reqs i with
  | some r => if r.status.isNone then some r else none
  | none => none

/-- Changes one item of a request. -/
def updItem (i k : Nat) (f : Item → Item) (s : State) : State := s.updReq i fun r => { r with items := r.items.modify k f }

/-- The unit set of an item. -/
def State.itemSet (s : State) (r : Req) (it : Item) : SetShape :=
  let q := Query.ofBlock r.blk
  ((s.reqSets r q (Geo.ofImage (s.image r.profile r.version))).getD it.set ⟨0, 0, 0, 0, 0⟩)

/-- Half pages with an attended slot. -/
def halvesOf (slots : List Nat) : Nat :=
  (if slots.any (fun j => decide (j < 128)) then 1 else 0) + (if slots.any (fun j => decide (128 ≤ j)) then 1 else 0)

/-- Work units of an item (Table 3-4). -/
def itemUnits (path : Nat) (g : Geo) (sh : SetShape) (slots : List Nat) : Nat :=
  if path = 0 then sh.ntok * sh.nhead * halvesOf slots
  else if path = 1 then sh.ntok * sh.nhead * halvesOf slots + sh.nhead * ((slots.map (· / 32)).eraseDups).length
  else sh.ntok * (sh.nhead / max 1 g.group) * halvesOf slots

/-- Lane MACs of an item's units, over attended slots (Table 3-4, R366). -/
def itemMacs (path : Nat) (g : Geo) (sh : SetShape) (n : Nat) : Nat :=
  if path = 0 then sh.ntok * sh.nhead * n * (g.cc + g.cp + g.cc)
  else if path = 1 then sh.nhead * n * (g.dk + g.dv) * g.cc + sh.ntok * sh.nhead * n * (g.dk + g.cp + g.dv)
  else sh.ntok * sh.nhead * n * (2 * g.d)

/-- The part of a page's bytes that an item stands for: the KV heads of its slice, or a half (R65). -/
def itemPart (g : Geo) (all slice path kvSlice : Nat) : Nat :=
  if path = 2 then all * kvSlice / max 1 g.kv else if slice = 2 then all else all / 2

/-- HBM bytes read for an item: the counted slots of an open page, else the stored page or the slice of it (R130, R65). -/
def itemBytes (g : Geo) (p : Page) (it : Item) (path kvSlice : Nat) : Nat :=
  let all := if it.opened then it.fill * (if p.hold then 2 * g.channels else rowBytes g p.fmt + scaleBytes g p.fmt)
    else storedBytes g p.fmt
  itemPart g all it.slice path kvSlice

/-- Page-buffer space of an item's image (R65). -/
def itemImage (g : Geo) (p : Page) (it : Item) (path kvSlice : Nat) : Nat :=
  itemPart g (imageBytes g p.fmt (readsTail p it.opened)) it.slice path kvSlice

/-- Whether a pod can hold the states of all the members of a release (R63, R66, R85). -/
def State.podFits (s : State) (members : List (Nat × Nat)) (p : Pod) : Bool :=
  let step (acc : Bool × Pod) (m : Nat × Nat) : Bool × Pod :=
    match Map.find? s.reqs m.1 with
    | none => acc
    | some r =>
      let it := r.items.getD m.2 Item.none
      let sh := s.itemSet r it
      let ex := decide ((Query.ofBlock r.blk).path = 1)
      if acc.2.sets.any (fun x => x.req == m.1 && x.set == it.set) then acc
      else (acc.1 && acc.2.canHold m.1 it.set sh.bytes ex,
            { acc.2 with sets := acc.2.sets ++ [{ req := m.1, set := it.set, bytes := sh.bytes, expanded := ex, anchor := false, acc := [] }] })
  (members.foldl step (true, p)).1

/-- Gives the pages of one release, all of the same page, to a pod as one pass (R14, R15, R63, R85). -/
def givePass (region pod : Nat) (members : List (Nat × Nat)) (s : State) : State :=
  let many := decide (2 ≤ members.length)
  let one (a : State × Pass) (m : Nat × Nat) : State × Pass :=
    let t := a.1
    match t.live m.1 with
    | none => a
    | some r =>
      match r.items[m.2]?, (r.items[m.2]?).bind fun it => Map.find? t.pages it.page with
      | some it, some p =>
        let q := Query.ofBlock r.blk
        let g := Geo.ofImage (t.image r.profile r.version)
        let sh := t.itemSet r it
        let units := itemUnits q.path g sh (t.itemSlots r it p.fill)
        let t1 := (takeSet region pod m.1 it.set sh.bytes (decide (q.path = 1)) t).updPage it.page fun p => { p with holders := p.holders + 1 }
        let t2 := updItem m.1 m.2 (fun x => { x with state := .queued, pod, fill := p.fill, grouped := many, units })
          (countUp (pgRegn region) 0x0A0 1 t1)
        (t2.updReq m.1 fun x => { x with gathered := x.gathered || many },
         { a.2 with page := it.page, bytes := itemImage g p it q.path (sh.nhead / max 1 g.group), members := a.2.members ++ [m],
                    units := a.2.units + units })
      | _, _ => a
  let (s1, pass) := members.foldl one (s, { page := 0, bytes := 0, members := [], units := 0, lanes := [], rerun := [] })
  s1.updPod region pod (Pod.give pass)

/-- Hands the pages of one release, all of the same page, to a pod (R18, R85): none where no pod can take them (R66, R116). A page
in HBM is read there; one read without promotion counts once (R207). -/
def assign (region : Nat) (members : List (Nat × Nat)) (s : State) : Option State :=
  match members with
  | [] => none
  | (i0, k0) :: _ =>
    match s.live i0 with
    | none => none
    | some r0 =>
      match s.choosePod region r0.part r0.profile r0.version (s.podFits members) with
      | none => none
      | some pod =>
        let many := decide (2 ≤ members.length)
        let q0 := Query.ofBlock r0.blk
        let g := Geo.ofImage (s.image r0.profile r0.version)
        let s1 := givePass region pod members (useProfile region pod r0.profile r0.version s)
        let s2 := match (s1.live i0).bind fun r => r.items[k0]? with
          | some it =>
            let s2 := if it.streamed then countUp pgTier 0x070 1 s1 else s1
            match Map.find? s2.pages it.page with
            | some p => if p.tier = 0 ∧ !it.streamed then hbmAccess region p.part true
                (itemBytes g p it q0.path ((s1.itemSet r0 it).nhead / max 1 g.group)) s2 else s2
            | none => s2
          | none => s1
        let s3 := crossDie (region / 4) 1 false r0.blk.length s2
        some (if many then countUp (pgRegn region) 0x0A8 1 s3 else s3)

/-! ## Gathering -/

/-- The partition of a group: its own for STRICT, one for all SHARED partitions (R85). -/
def State.gatherPart (s : State) (part : Option Nat) : Nat :=
  match part with | some p => if s.strict p then p else 256 | none => 256

/-- Members held in a region for a partition key. -/
def State.gathered (s : State) (region part : Nat) : Nat :=
  (s.region region).groups.foldl (fun n g => if g.part = part then n + g.members.length else n) 0

/-- Gathering entries reserved in a region. -/
def Region.reservedGather (r : Region) : Nat := r.rsv.foldl (fun n kv => n + kv.2.gather) 0

/-- Whether a page may be held (R84, R86). -/
def State.mayHold (s : State) (region : Nat) (r : Req) : Bool :=
  let key := s.gatherPart r.part
  let cap := if key = 256 then 512 - (s.region region).reservedGather
    else match Map.find? (s.region region).rsv key with | some v => v.gather | none => 0
  s.field (pgRegn region) 0x04C 0 8 != 0 && !(Query.ofBlock r.blk).noGather && decide (s.gathered region key < cap)

/-- Whether a held page can still be computed where it was held (R17, R22): it lies in that region, in HBM unless it is streamed. A page
that has moved meanwhile is dispatched again. -/
def State.stillThere (s : State) (region : Nat) (m : Nat × Nat) : Bool :=
  match (s.live m.1).bind fun r => r.items[m.2]? with
  | some it =>
    match Map.find? s.pages it.page with
    | some p => p.lastRegion == region && p.state != .absent && (it.opened || (p.tier == 0) != it.streamed)
    | none => false
  | none => false

/-- Releases a group to a pod (R85): unchanged where no pod can take it. -/
def releaseGroup (region gid : Nat) (s : State) : State :=
  let drop (t : State) : State := t.updRegion region fun x => { x with groups := x.groups.filter fun y => y.id != gid }
  match (s.region region).groups.find? fun g => g.id == gid with
  | none => s
  | some g =>
    if g.members.all fun m => s.stillThere region m then
      match assign region g.members s with
      | none => s
      | some t => drop t
    else drop (g.members.foldl (fun t m => updItem m.1 m.2 (fun x => { x with state := .waiting, streamed := false }) t) s)

/-- Whether a member fits a group's pod (R85). -/
def State.groupTakes (s : State) (g : Group) (m : Nat × Nat) : Bool := s.podFits (g.members ++ [m]) (Pod.initial 0)

/-- The slice (R65) of the page that a member of a group stands for. -/
def State.memberSlice (s : State) (m : Nat × Nat) : Option Nat := (s.live m.1).bind fun r => (r.items[m.2]?).map (·.slice)

/-- Holds a page in the group it belongs to (R85), which is of different requests and of one slice, and which is released first when
the page would exceed a pod's capacity. A page whose group cannot be released waits. -/
def holdItem (region i k : Nat) (r : Req) (it : Item) (tail : Bool) (s : State) : State :=
  let key := s.gatherPart r.part
  let path := (Query.ofBlock r.blk).path
  let same (g : Group) : Bool := g.page == it.page && g.tailForm == tail && g.profile == r.profile && g.version == r.version
    && g.path == path && g.part == key && g.members.all fun m => m.1 != i && s.memberSlice m == some it.slice
  let s1 := match (s.region region).groups.find? same with
    | some g => if s.groupTakes g (i, k) then s else releaseGroup region g.id s
    | none => s
  let join (gid : Nat) (t : State) : State :=
    updItem i k (fun x => { x with state := .held, heldAt := t.time })
      (t.updRegion region fun x => { x with groups := x.groups.map fun g =>
        if g.id = gid then { g with members := g.members ++ [(i, k)] } else g })
  match (s1.region region).groups.find? same with
  | some g => if s1.groupTakes g (i, k) then join g.id s1 else s1
  | none =>
    let gid := (s1.region region).groups.foldl (fun n g => max n (g.id + 1)) 0
    let g : Group := { id := gid, page := it.page, tailForm := tail, profile := r.profile, version := r.version, path,
                       part := key, since := s1.time, members := [] }
    join gid (s1.updRegion region fun x => { x with groups := x.groups ++ [g] })

/-- GATHER_RELEASE: a group's oldest member has been held for GW (R85). -/
def gatherRelease (region gid : Nat) (s : State) : State :=
  match (s.region region).groups.find? fun g => g.id == gid with
  | none => s
  | some g =>
    if g.since + 100 * s.field (pgRegn region) 0x04C 0 8 ≤ s.time then releaseGroup region gid s else s

/-- GATHER_RELEASE. -/
def execGatherRelease (region group : Nat) (s : State) : Host.Outcome State Fault Refusal :=
  ok (whenReady (whenOpen region (gatherRelease region group)) s)

/-! ## Sets (R63, R66, R69) -/

/-- Whether a pod has a set's state. -/
def Pod.hasSet (p : Pod) (i set : Nat) : Bool := p.sets.any fun x => x.req == i && x.set == set

/-- The running partials of a set that a pod holds. -/
def Pod.partialOf (p : Pod) (i set : Nat) : Map Triple := match p.sets.find? fun x => x.req == i && x.set == set with | some x => x.acc | none => []

/-- Changes the running partials of a set that a pod holds. -/
def Pod.updSet (p : Pod) (i set : Nat) (f : Map Triple → Map Triple) : Pod :=
  { p with sets := p.sets.map fun x => if x.req = i ∧ x.set = set then { x with acc := f x.acc } else x }

/-- Frees a set's state in a pod. -/
def Pod.freeSet (p : Pod) (i set : Nat) : Pod := { p with sets := p.sets.filter fun x => !(x.req == i && x.set == set) }

/-- The anchor of a set in a region (R64). -/
def State.anchorOf (s : State) (region i set : Nat) : Option Nat :=
  (List.range 28).find? fun k => (s.pod region k).sets.any fun x => x.req == i && x.set == set && x.anchor

/-- Merges one map of entries into another, the first's entries first (R144). -/
def mergeMaps (a b : Map Triple) : Map Triple :=
  b.foldl (fun m kv => Map.insert m kv.1 (match Map.find? m kv.1 with | some x => mergeTriple x kv.2 | none => kv.2)) a

/-- A pod other than the anchor sends its partial of a set and frees the set's state, once it has finished its last page of the
set: no page of the set is left to the region and none to the pod (R66). -/
def sendPartials (region i set : Nat) (s : State) : State :=
  match Map.find? s.reqs i, s.anchorOf region i set with
  | some r, some anchor =>
    let left := r.items.any fun it => it.region == region && it.set == set &&
      (it.state == .waiting || it.state == .held || it.state == .fetching || it.state == .fetched)
    let busy (p : Pod) : Bool := p.work.any fun w => w.1 == i && (match r.items[w.2]? with | some it => it.set == set | none => false)
    if left then s
    else (List.range 28).foldl (fun t k =>
      let p := t.pod region k
      if k = anchor ∨ !p.hasSet i set ∨ busy p then t
      else (t.updPod region anchor fun x => x.updSet i set fun a => mergeMaps a (p.partialOf i set)).updPod region k fun x => x.freeSet i set) s
  | _, _ => s

/-- The absorption and up-projection units of an anchor for one set of a LATENT query (R62, R66, R79). -/
def chargeAnchor (region pod set : Nat) (r : Req) (s : State) : State :=
  let q := Query.ofBlock r.blk
  let g := Geo.ofImage (s.image r.profile r.version)
  let sh := (s.reqSets r q g).getD set ⟨0, 0, 0, 0, 0⟩
  let n := sh.ntok * sh.nhead
  if q.path = 0 then
    chargeWork r.slot (n * g.dv * g.cc + if q.sel = 0 then n * g.dk * g.cc else 0)
      (n * ceilDiv g.dv 16 + if q.sel = 0 then n * ceilDiv g.cc 64 else 0) region pod s
  else s

/-- A set's region partial (R66, R69): the anchor up-projects on the LATENT path, then runs the OUTPUT stages. -/
def State.setPartial (s : State) (r : Req) (acc : Map Triple) : Map Triple :=
  let q := Query.ofBlock r.blk
  let img := s.image r.profile r.version
  let g := Geo.ofImage img
  Map.mapVals acc fun k x =>
    let h := k % 128
    outputStages img (imgProgram img) h (if q.path = 0 then upProject g img r.layer h x else x)

/-- When a region has finished every page of a set, the anchor combines the partials, hands the set's region partial to the query
combiner and frees the set's state (R66); before that, pods that have finished send theirs. -/
def finishSet (region i set : Nat) (s0 : State) : State :=
  let s := sendPartials region i set s0
  match s.live i with
  | none => s
  | some r =>
    let mine (it : Item) : Bool := it.region == region && it.set == set
    if r.items.any fun it => mine it && it.state != .done && it.state != .omitted then s
    else
      let hand (acc : Map Triple) (t : State) : State := t.updReq i fun x =>
        { x with items := x.items.map fun it => if mine it then { it with handed := true } else it
                 accs := Map.insert x.accs region (mergeMaps (Map.getD x.accs region []) acc) }
      match s.anchorOf region i set with
      | none => hand [] s
      | some pod =>
        (hand (s.setPartial r ((s.pod region pod).partialOf i set)) (chargeAnchor region pod set r s)).updPod region pod fun x => x.freeSet i set

/-! ## PAGE_DISPATCH -/

/-- The read policy in force (R197): 1 STREAM, 2 PROMOTE; PROMOTE reads as STREAM in a FLAGGED partition. -/
def State.readPolicy (s : State) (q : Query) (part : Nat) : Nat :=
  match s.part? part with
  | some p => if p.flagged then 1 else if q.rpol = 0 then (if p.promote then 2 else 1) else q.rpol
  | none => 1

/-- Places a page that is ready: held for gathering, or given to a pod at once (R86). -/
def placeItem (region i k : Nat) (r : Req) (it : Item) (tail streamed : Bool) (s : State) : State :=
  let t := updItem i k (fun x => { x with streamed }) s
  if t.mayHold region r then holdItem region i k r it tail t else (assign region [(i, k)] t).getD s

/-- An item passes to the region in which its page now lies (R17, R188): the region it leaves may thereby have finished its set, and
the one it enters will have a partial to send again. -/
def moveItem (i k region : Nat) (s : State) : State :=
  match (s.live i).bind fun r => r.items[k]? with
  | none => s
  | some it =>
    if it.region = region then s
    else
      let t := (updItem i k (fun x => { x with region }) s).updReq i fun r => { r with arrived := r.arrived.filter (· != region) }
      finishSet it.region i it.set t

/-- PAGE_DISPATCH: the dispatcher takes up a page of a set (R29, R188, R197, R198). -/
def pageDispatch (i k : Nat) (s : State) : State :=
  match s.live i with
  | none => s
  | some r =>
    match r.items[k]? with
    | none => s
    | some it =>
      if r.kind ≠ .query ∨ !r.scanned ∨ (it.state ≠ .waiting ∧ it.state ≠ .fetched) then s
      else match Map.find? s.pages it.page with
        | none => failAbsent i it.entry s
        | some p =>
          let q := Query.ofBlock r.blk
          let region := p.lastRegion
          let tail := readsTail p it.opened
          if p.state = .absent then failAbsent i it.entry s
          else if p.restoring ∨ s.quiet region then s
          else
            let t := moveItem i k region (seeMask i it.entry s)
            if s.itemSlots r it p.fill = [] then finishSet region i it.set (updItem i k (fun x => { x with state := .done, fill := 0 }) t)
            else
            let wait := updItem i k fun x => { x with state := .fetching }
            if p.tier = 0 ∨ it.opened then placeItem region i k r it tail false t
            else if it.state = .fetched then placeItem region i k r it tail true t
            else if s.readPolicy q p.part = 2 ∧ p.state = .migrating ∧ p.dest = 0 then wait t
            else
              let stream (u : State) : State :=
                if p.tier = 2 then
                  match fetchLent it.page 0 i k u with
                  | some v => wait v
                  | none => u
                else if p.tier = 1 ∧ u.flash.mounting then u
                else placeItem region i k r it tail true u
              if s.readPolicy q p.part = 2 ∧ p.movable then
                match beginPromote it.page t with
                | some u => wait u
                | none => stream (if it.fellBack then t else (updItem i k (fun x => { x with fellBack := true }) t).bump pgTier 0x088)
              else stream t

/-- PAGE_DISPATCH. -/
def execPageDispatch (req item : Nat) (s : State) : Host.Outcome State Fault Refusal :=
  ok (whenReady (pageDispatch req item) s)

/-! ## WORK_UNIT_COMPLETE -/

/-- The running partials of a set in a pod after an item's units have completed: its attended slots' partials merged in (R62, R63, R144). -/
def State.itemPartials (s : State) (r : Req) (it : Item) (p : Page) (acc : Map Triple) : Map Triple :=
  let q := Query.ofBlock r.blk
  let img := s.image r.profile r.version
  let g := Geo.ofImage img
  let prog := imgProgram img
  let sh := s.itemSet r it
  let tail := readsTail p it.opened
  let form : PageForm := { g, img, layer := r.layer, fmt := p.fmt, evar := p.evar, params := p.params, tail, rows := p.rows,
                           tails := p.tail }
  let slots := s.itemSlots r it it.fill
  let cells := (List.range sh.ntok).flatMap fun t => (List.range sh.nhead).map fun h => (sh.tok + t, sh.head + h)
  cells.foldl (fun m th =>
    let ask : Ask := { head := th.2, qpos := qposOf r.blk th.1, q := q.elems r.blk g th.1 th.2, program := prog }
    let x := pagePartial q.path form ask it.entry slots
    let key := th.1 * 128 + th.2
    Map.insert m key (match Map.find? m key with | some y => mergeTriple y x | none => x)) acc

/-- WORK_UNIT_COMPLETE: the work units of the page on a pod's lanes have completed and passed their residue checks (R15), with valid
results only (R13); its partial joins the running partials of its set in that pod, and its page buffer is free again (R50). -/
def workDone (region pod i k : Nat) (s : State) : State :=
  let p := s.pod region pod
  if !p.finishes (i, k) then s
  else match Map.find? s.reqs i with
    | none => s
    | some r =>
      match r.items[k]? with
      | none => s
      | some it =>
        let s1 := s.updPod region pod fun x => x.without (i, k) it.units
        let s2 := s1.updPage it.page fun x => { x with holders := x.holders - 1 }
        let s3 := countUp (pgPod region pod) 0x070 it.units s2
        let s4 := updItem i k (fun x => { x with state := .done }) s3
        let s5 := match Map.find? s.pages it.page with
          | none => s4
          | some pg =>
            let q := Query.ofBlock r.blk
            let g := Geo.ofImage (s.image r.profile r.version)
            let macs := itemMacs q.path g (s.itemSet r it) (s.itemSlots r it it.fill).length
            let t := meter r.slot 3 macs s4
            if r.status.isSome then t
            else t.updPod region pod fun x => x.updSet i it.set (s.itemPartials r it pg)
        sweep (settleReq i (finishSet region i it.set s5))

/-- WORK_UNIT_COMPLETE. -/
def execWorkUnitComplete (region pod req item : Nat) (s : State) : Host.Outcome State Fault Refusal :=
  ok (whenReady (whenOpen region (workDone region pod req item)) s)

/-! ## REGION_PARTIAL -/

/-- REGION_PARTIAL: a region's partial, of every set that its anchors have handed over, reaches the query combiner, and the last one
commits the query (R159). -/
def regionPartialArrives (i region : Nat) (s : State) : State :=
  match s.live i with
  | none => s
  | some r =>
    let mine := r.items.filter fun it => it.region == region && it.state != .omitted
    if r.kind ≠ .query ∨ !r.scanned ∨ r.arrived.contains region ∨ mine = [] ∨ mine.any (fun it => it.state != .done) then s
    else
      let bytes := (Map.vals (Map.getD r.accs region [])).foldl (fun n t => n + 8 + 4 * t.o.length) 0
      let s1 := (crossDie (region / 4) 1 true bytes s).updReq i fun x =>
        { x with combined := mergeMaps x.combined (Map.getD x.accs region []), accs := Map.erase x.accs region,
                 arrived := x.arrived ++ [region] }
      match Map.find? s1.reqs i with
      | some x => if x.regions.all fun k => x.arrived.contains k then commitQuery i s1 else s1
      | none => s1

/-- REGION_PARTIAL. -/
def execRegionPartial (req region : Nat) (s : State) : Host.Outcome State Fault Refusal :=
  ok (whenReady (whenOpen 16 (whenOpen region (regionPartialArrives req region))) s)

end Sys2Proof.Machine
end

