-- ==== Sys2Proof/Machine/Append.lean ====
section
/-! DEFINITION. Placement rules (R178 to R180, R400), APPEND of tokens and of mask data (R119 to R128, R142, R143), SEAL (R133,
R134) and the completion of an APPEND (R124, R346). -/
namespace Sys2Proof.Machine

/-! ## Placement rules -/

/-- A rule lookup key (Table 7-7). -/
def ruleKey (tenant profile cls layer age event : Nat) (ret : Bool) (tier : Nat) : Nat :=
  tenant + profile * 2 ^ 12 + cls * 2 ^ 28 + layer * 2 ^ 36 + age * 2 ^ 44 + event * 2 ^ 48 + (if ret then 2 ^ 50 else 0)
    + tier * 2 ^ 51

/-- The action the rules choose (R178): the first matching rule in table order, else MEX_DEFAULT_ACT. -/
def State.ruleAction (s : State) (key : Nat) : Nat :=
  match s.mex.rules.find? fun r => (key ^^^ r.value) &&& r.care == 0 with
  | some r => r.action
  | none => s.reg pgMex 0x060

/-- The tenant of a partition. -/
def State.tenantOf (s : State) (part : Nat) : Nat := match s.part? part with | some p => p.tenant | none => 0

/-- Whether the mirror partner of a partition is set and its Keeper connection OPEN (R349). -/
def State.partnerUp (s : State) (part : Nat) : Bool :=
  match (s.part? part).bind (·.partner) with
  | some n => (s.keeperConn n).isSome
  | none => false

/-- The stream that its first page makes (R53, R179): retention, mirror mode and format from the STREAM event. A format that R180
or R400 forbids is skipped and counted. -/
def newStream (part profile cls layer : Nat) (g : Geo) (img : Bytes) (s : State) : Stream × State :=
  let act := s.ruleAction (ruleKey (s.tenantOf part) profile cls layer 0 0 false 0)
  let ret := bitOf act 2
  let m := bitsOf act 3 2
  let dflt := match s.part? part with | some p => (p.mirror, p.km1 + 1) | none => (0, 1)
  let mk := if !ret then (0, 1) else if m = 3 then dflt else (m, bitsOf act 5 4 + 1)
  let fmt := bitsOf act 10 4
  let override := bitOf act 9 && decide (3 ≤ fmt)
  let skip := override && !g.hold && (fmt == 0xF || (fmt == 0xE && (imgPscale img layer).isZero))
  let st := if override ∧ !skip then Stream.initial fmt 0 else Stream.initial g.sfmt g.evar
  let live := ret && s.partnerUp part
  ({ st with retained := ret, mirror := mk.1, k := mk.2, mstate := if live then 2 else 0 },
   if skip then s.bump pgMex 0x068 else s)

/-! ## Opening pages -/

/-- The page-list entries in which an APPEND of `count` tokens at `first` opens a page: those whose first slot it writes. -/
def openedEntries (first count : Nat) : List Nat :=
  ((List.range count).filter fun j => (first + j) % 256 == 0).map fun j => (first + j) / 256

/-- Opens a page at a page-list entry in the region of R28; none where no region has room or no serial is left (check 10). -/
def openEntry (part conv layer slot profile version : Nat) (g : Geo) (img : Bytes) (sr refill : Bool) (entry : Nat) (s : State) :
    Option State :=
  match s.stream? conv layer, s.part? part with
  | some st, some p =>
    let r := s.bestRegion part
    if serialsLeft p = 0 ∨ s.partFree part r < openBlocks g st.fmt then none
    else
      let (serial, s1) := takeSerial part s
      let h := mkPage p.tenant s.nodeId serial
      let s2 := match Map.find? st.entries entry with
        | some old => releaseShare conv old s1
        | none => s1
      let s3 := (writeMeta part 0 (streamKey conv layer) s2).putPage h (Page.opening part conv layer entry r slot profile version st g img sr refill)
      some (s3.updStream conv layer fun x =>
        { x with entries := Map.insert x.entries entry h, home := match x.home with | some k => some k | none => some r })
  | _, _ => none

/-- Opens every page an APPEND needs, or none (R123). -/
def openPages (part conv layer slot profile version : Nat) (g : Geo) (img : Bytes) (sr refill : Bool) (entries : List Nat)
    (s : State) : Option State :=
  entries.foldl (fun (acc : Option State) e => acc.bind (openEntry part conv layer slot profile version g img sr refill e)) (some s)

/-- Whether a partition has sealed CACHE pages in HBM, which an APPEND may wait for (Table 8-5): a reader, a pod or a source copy that
is not yet released only delays their eviction. -/
def State.evictable (s : State) (part : Nat) : Bool :=
  s.pages.any fun kv => kv.2.part == part && kv.2.state == .sealed && kv.2.tier == 0 && !kv.2.retained

/-- Takes the lowest free conversation slot of a partition (R38, R39): its number and generation. -/
def State.freeSlot (s : State) (part : Nat) : Option (Nat × Nat) :=
  match s.part? part with
  | none => none
  | some p =>
    let free (k : Nat) : Bool := match Map.find? p.slots k with | some c => !c.used && !c.retired | none => true
    ((List.range (p.slots.length + 1)).find? fun k => free k && decide (k < 2 ^ 28)).map fun k =>
      (k, match Map.find? p.slots k with | some c => c.gen | none => 1)

/-- Creates a conversation (R38). -/
def makeConv (part slot gen profile charge : Nat) (s : State) : Nat × State :=
  let h := mkConv (s.tenantOf part) s.nodeId slot gen
  let s1 := s.updPart part fun p => { p with slots := Map.insert p.slots slot { gen, used := true, retired := false } }
  let c : Conv := { part, profile, cls := 0, slot := charge, primaryNode := none, deleting := false, freezer := none, frozenAt := 0, answered := false, held := [] }
  (h, writeMeta part 1 h { s1 with convs := Map.insert s1.convs h c })

/-! ## APPEND of tokens -/

/-- The slot after the last token of an APPEND, at its acceptance (R121): SEAL_AFTER inside a page moves on to the next entry. -/
def nextAfter (first count : Nat) (sealAfter : Bool) : Nat :=
  let n := first + count
  if sealAfter ∧ n % 256 ≠ 0 then roundUp n 256 else n

/-- Whether an APPEND's place is as R121 requires; the flag says it refills an ABSENT entry. -/
def State.placeOk (s : State) (conv layer next : Nat) (a : AppendBlk) : Option Bool :=
  if a.at_ = 0 ∨ a.first = next then some false
  else match s.pageAt conv layer (a.first / 256) with
    | some (_, p) =>
      if p.state = .absent ∧ a.first % 256 = 0 ∧ a.first < next ∧ a.count ≤ 256 then some true else none
    | none => none

/-- What check 10 decides, with the stream made if it is new: the request accepted, waiting for eviction, or refused. -/
inductive Reserve where
  | done (s : State)
  | wait
  | full

/-- Check 10 of Table 5-2. -/
def State.reserve (s : State) (part conv layer slot profile version : Nat) (g : Geo) (img : Bytes) (a : AppendBlk)
    (first : Nat) (refill : Bool) : Reserve :=
  let es := openedEntries first a.count
  match openPages part conv layer slot profile version g img a.sr refill es s with
  | some t => .done t
  | none =>
    let serials := match s.part? part with | some p => serialsLeft p | none => 0
    if serials < es.length ∨ !s.evictable part then .full else .wait

/-- The stream of an APPEND, made at its first page (R53). -/
def withStream (part conv layer profile cls : Nat) (g : Geo) (img : Bytes) (s : State) : State :=
  match s.stream? conv layer with
  | some _ => s
  | none =>
    let (st, s1) := newStream part profile cls layer g img s
    s1.putStream conv layer st

/-- The slot after the last written, 0 for a stream with no page (R121). -/
def State.nextSlot (s : State) (conv layer : Nat) : Nat := match s.stream? conv layer with | some st => st.next | none => 0

/-- Writes an APPEND refusal's result (Table 5-3); the next slot is valid at check 7. -/
def refuseAppend (src : Src) (a : AppendBlk) (st : Status) (next : Nat) (s : State) : State :=
  deliver src 1 a.id st.code 0 (s.chargeSlot a.comp) (appendResult a.id st.code false 0 0 0 next)
    (recordDone a.id (s.masterOf src) st.code s)

/-- Whether an APPEND of the stream waits at check 10, so that later ones wait behind it (R123). -/
def State.streamWaits (s : State) (conv layer : Nat) : Bool :=
  s.reqs.any fun kv => kv.2.kind == .append && kv.2.conv == conv && kv.2.layer == layer && kv.2.status.isNone && !kv.2.scanned

/-- Whether the partner's loss refuses appends to a stream (R349). -/
def State.lossRefuses (s : State) (st : Option Stream) (part : Nat) : Bool :=
  match st with
  | some x => x.retained && s.field pgRes 0x050 0 1 == 1 && (match s.part? part with
      | some p => p.partner.isSome | none => false) && !s.partnerUp part
  | none => false

/-- The metering slot a page of a conversation belongs to: the conversation's, whichever slot the APPEND is charged to (R367). -/
def State.homeSlot (s : State) (conv comp : Nat) : Nat := match Map.find? s.convs conv with | some c => c.slot | none => s.chargeSlot comp

/-- Checks 6 to 10 of Table 5-2 on a conversation that exists, and acceptance (R123). `req` is the request entry of an APPEND that
has waited at check 10, else none; `created` says this APPEND makes the conversation, which `s` holds and `s0` does not. An APPEND that
waits writes nothing: its conversation and its stream are made, and STREAM is evaluated (R53, R179), only once its pages are allocated. -/
def appendOn (src : Src) (blk : Bytes) (part conv profile cls : Nat) (created : Bool) (req : Option Nat) (s0 s : State) : State :=
  let a := AppendBlk.ofBlock blk
  let master := s.masterOf src
  let refuse (st : Status) (next : Nat) : State := match req with
    | none => refuseAppend src a st next s0
    | some i => commitReq i st (appendResult a.id st.code false 0 0 0 next) s0
  match s.resident profile with
  | none => refuse .invalidMode 0
  | some (_, slot) =>
    let g := Geo.ofImage slot.img
    let next := s.nextSlot conv a.layer
    let first := if a.at_ = 0 then next else a.first
    if g.layers ≤ a.layer ∨ blk.length ≠ 64 + a.count * g.channels * dataBytes a.dfmt then refuse .invalidMode 0
    else match s.placeOk conv a.layer next a with
      | none => refuse .invalidMode next
      | some refill =>
        if 16777215 < first + a.count - 1 then refuse .full 0
        else if (req.isNone ∧ (!s.entryFree (some part) ∨ s.duplicate master a.id)) ∨
            s.lossRefuses (s.stream? conv a.layer) part then refuse .busy 0
        else
          let s1 := withStream part conv a.layer profile cls g slot.img s
          let r : Req := { Req.initial .append a.id src master (some part) (s.chargeSlot a.comp) blk with
            conv, layer := a.layer, profile, version := slot.ver, firstSlot := first, created }
          match s1.reserve part conv a.layer (s.homeSlot conv a.comp) profile slot.ver g slot.img a first refill with
          | .full => refuse .full 0
          | .wait => match req with
            | some _ => s0
            | none => (addReq { r with scanned := false, conv := if created then 0 else conv } s0).2
          | .done s2 =>
            let s3 := if refill then s2 else s2.updStream conv a.layer fun x => { x with next := nextAfter first a.count a.sealAfter }
            let r1 := { r with nextSlot := s3.nextSlot conv a.layer }
            match req with
            | some i => s3.updReq i fun x =>
                { x with scanned := true, conv := conv, firstSlot := first, nextSlot := r1.nextSlot, version := slot.ver }
            | none => (addReq r1 s3).2

/-- Queues an APPEND or SEAL behind one that waits at check 10 (R123). -/
def waitBehind (opcode : Nat) (src : Src) (conv layer : Nat) (blk : Bytes) (s : State) : State :=
  let waits (r : Req) : Bool := r.kind == .append && r.conv == conv && r.layer == layer && r.status.isNone && !r.scanned
  let queue (r : Req) : Req := if waits r then { r with behind := r.behind ++ [(src, opcode, blk)] } else r
  holdCid src { s with reqs := Map.mapVals s.reqs fun _ r => queue r }

/-- Creating a conversation by APPEND (checks 4 and 5 of Table 5-2). -/
def appendCreate (src : Src) (blk : Bytes) (part : Nat) (s : State) : State :=
  let a := AppendBlk.ofBlock blk
  let role := s.field pgCmp 0x040 0 2
  if (role ≠ 0 ∧ role ≠ 3) ∨ (s.resident a.profile).isNone ∨ s.prof.deleting.contains a.profile then
    refuseAppend src a .invalidMode 0 s
  else match s.freeSlot part with
    | none => refuseAppend src a .full 0 s
    | some (slot, gen) =>
      let (h, s1) := makeConv part slot gen a.profile (s.chargeSlot a.comp) s
      appendOn src blk part h a.profile 0 true none s s1

/-- APPEND with FORM 0: the checks of Table 5-2 in order (R122). -/
def appendTokens (src : Src) (blk : Bytes) (s : State) : State :=
  let a := AppendBlk.ofBlock blk
  if !AppendBlk.check1 blk then refuseAppend src a .invalidMode 0 s
  else match s.authorise src (hTenant a.handle) 2 with
  | none => finishDenied src a.id (s.tenantTarget (hTenant a.handle)) s
  | some part =>
    if !s.keyed part then refuseAppend src a .denied 0 s
    else
      let object := if a.creating then none else some a.handle
      withComp opAppend src a.id a.comp a.epoch object (s.heldConv a.handle).isSome (some part) none blk (fun t =>
        if a.creating then appendCreate src blk part t
        else match t.heldConv a.handle with
          | none => refuseAppend src a .absent 0 t
          | some c =>
            if c.readOnly then refuseAppend src a .invalidMode 0 t
            else if t.frozen a.handle then holdFrozen opAppend src a.id (some part) (t.chargeSlot a.comp) none a.handle blk t
            else if t.streamWaits a.handle a.layer then waitBehind opAppend src a.handle a.layer blk t
            else appendOn src blk part a.handle c.profile c.cls false none t t) s

/-! ## APPEND of mask data -/

/-- 4 KiB blocks of a mask object. -/
def maskBlocks (len : Nat) : Nat := ceilDiv (32 * len) 4096

/-- Free blocks of a region's mask store: 128 MiB a region (Table 2-7). -/
def State.maskFree (s : State) (region : Nat) : Nat :=
  32768 - s.masks.foldl (fun n kv => if kv.2.region = region then n + maskBlocks kv.2.len else n) 0

/-- The region with the most free mask store, the lowest number on a tie (R142). -/
def State.maskRegion (s : State) : Nat :=
  (List.range 16).foldl (fun b r => if s.maskFree b < s.maskFree r then r else b) 0

/-- Writes whole 32-byte segments into a mask object in rising order (R143); its write count rises (R308). -/
def writeMask (h first count : Nat) (data : Bytes) (s : State) : State :=
  let t := match Map.find? s.masks h with | some m => writeMeta m.part 3 h s | none => s
  { t with masks := Map.adjust t.masks h fun m =>
      { m with writes := m.writes + 1,
               segs := (List.range count).foldl (fun g k => Map.put g (first / 256 + k) (slice data (32 * k) 32) (zeros 32)) m.segs } }

/-- APPEND with FORM 1 (R142, R143): it completes at once. -/
def appendMaskData (src : Src) (blk : Bytes) (s : State) : State :=
  let a := AppendBlk.ofBlock blk
  let refuse (st : Status) (t : State) : State := refuseAppend src a st 0 t
  if !AppendBlk.check1 blk then refuse .invalidMode s
  else match s.authorise src (hTenant a.handle) 2 with
  | none => finishDenied src a.id (s.tenantTarget (hTenant a.handle)) s
  | some part =>
    if !s.keyed part then refuse .denied s
    else
      let named := match Map.find? s.masks a.handle with
        | some m => if m.part = part ∧ !m.deleted then some m else none
        | none => none
      let object := if a.creating then none else some a.handle
      withComp opAppend src a.id a.comp a.epoch object named.isSome (some part) none blk (fun t =>
        let data := blk.drop 64
        let free := t.entryFree (some part) && !t.duplicate (t.masterOf src) a.id
        let slot := t.chargeSlot a.comp
        let good (h : Nat) (created : Bool) (u : State) : State :=
          deliver src 1 a.id 0 0 slot (appendResult a.id 0 created 0 h a.first 0) (recordDone a.id (u.masterOf src) 0 u)
        if a.creating then
          if a.maskLen * 32 < a.first / 8 + a.count * 32 then refuse .invalidMode t
          else if !free then refuse .busy t
          else
            let r := t.maskRegion
            let left := match t.part? part with | some p => serialsLeft p | none => 0
            if left = 0 ∨ t.maskFree r < maskBlocks a.maskLen then refuse .full t
            else
              let (serial, t1) := takeSerial part t
              let h := mkPage (t.tenantOf part) t.nodeId serial
              let m : MaskObj := { part, region := r, len := a.maskLen, segs := [], writes := 0, slot, deleted := false }
              good h true (writeMask h a.first a.count data { t1 with masks := Map.insert t1.masks h m })
        else match named with
          | none => refuse .absent t
          | some m =>
            if m.len * 32 < a.first / 8 + a.count * 32 then refuse .invalidMode t
            else if !free then refuse .busy t
            else good a.handle false (writeMask a.handle a.first a.count data t)) s

/-- The decoder's APPEND: FORM chooses (Table 5-1). -/
def runAppend (src : Src) (blk : Bytes) (s : State) : State :=
  if (AppendBlk.ofBlock blk).mask then appendMaskData src blk s else appendTokens src blk s

/-- APPEND. -/
def execAppend (src : Src) (blk : Bytes) (s : State) : Host.Outcome State Fault Refusal :=
  ok (serving opAppend src blk (runAppend src blk) s)

/-- APPEND_MASK. -/
def execAppendMask (src : Src) (blk : Bytes) (s : State) : Host.Outcome State Fault Refusal :=
  ok (serving opAppend src blk (runAppend src blk) s)

/-! ## SEAL -/

/-- The pages a SEAL of one stream seals (R133): the page at the stream's next slot and any page being refilled, unless triggered. -/
def State.sealPages (s : State) (conv layer : Nat) : List Nat :=
  match s.stream? conv layer with
  | none => []
  | some st => st.entries.filterMap fun kv => match Map.find? s.pages kv.2 with
      | some p =>
        if p.state = .opened ∧ !p.sealing ∧ (p.refill ∨ (st.next % 256 ≠ 0 ∧ kv.1 = st.next / 256)) then some kv.2 else none
      | none => none

/-- The streams a SEAL names. -/
def State.sealLayers (s : State) (conv layer : Nat) (all : Bool) : List Nat :=
  if all then (s.streams.filter fun kv => kv.1 / 256 == conv).map fun kv => kv.1 % 256 else [layer]

/-- Triggers the seal of one stream's pages, its next slot moving to the next entry (R43, R134). -/
def triggerSeal (conv layer : Nat) (s : State) : State :=
  let ps := s.sealPages conv layer
  let s1 := ps.foldl (fun t h => t.updPage h fun p => { p with sealing := true }) s
  s1.updStream conv layer fun x => { x with next := roundUp x.next 256 }

/-- SEAL (R133): checks 1 to 4, 6 and 9 of Table 5-2. -/
def runSeal (src : Src) (blk : Bytes) (s : State) : State :=
  let b := SealBlk.ofBlock blk
  let refuse (st : Status) (t : State) : State :=
    deliver src 1 b.id st.code 0 (t.chargeSlot b.comp) (appendResult b.id st.code false 0 0 0 0)
      (recordDone b.id (t.masterOf src) st.code t)
  if !SealBlk.check1 blk then refuse .invalidMode s
  else match s.authorise src (hTenant b.conv) 2 with
  | none => finishDenied src b.id (s.tenantTarget (hTenant b.conv)) s
  | some part =>
    if !s.keyed part then refuse .denied s
    else withComp opSeal src b.id b.comp b.epoch (some b.conv) (s.heldConv b.conv).isSome (some part) none blk (fun t =>
      match t.heldConv b.conv with
      | none => refuse .absent t
      | some c =>
        let g := match t.resident c.profile with | some (_, x) => Geo.ofImage x.img | none => Geo.ofImage []
        let named := if b.all then (List.range 256) else [b.layer]
        if c.readOnly then refuse .invalidMode t
        else if t.frozen b.conv then holdFrozen opSeal src b.id (some part) (t.chargeSlot b.comp) none b.conv blk t
        else match named.find? fun l => t.streamWaits b.conv l with
        | some l => waitBehind opSeal src b.conv l blk t
        | none =>
          if g.layers ≤ b.layer then refuse .invalidMode t
          else if !t.entryFree (some part) ∨ t.duplicate (t.masterOf src) b.id then refuse .busy t
          else
            let layers := t.sealLayers b.conv b.layer b.all
            let pages := layers.flatMap fun l => t.sealPages b.conv l
            let t1 := layers.foldl (fun u l => triggerSeal b.conv l u) t
            let next := t1.nextSlot b.conv (if b.all then 0 else b.layer)
            let r : Req := { Req.initial .seal b.id src (t.masterOf src) (some part) (t.chargeSlot b.comp) blk with
              conv := b.conv, layer := b.layer, waits := pages, sealCount := pages.length, nextSlot := next }
            let (i, t2) := addReq r t1
            if pages = [] then commitReq i .ok (appendResult b.id 0 false 0 b.conv 0 next) t2 else t2) s

/-- SEAL. -/
def execSeal (src : Src) (blk : Bytes) (s : State) : Host.Outcome State Fault Refusal :=
  ok (serving opSeal src blk (runSeal src blk) s)

/-! ## Writing the tokens -/

/-- Whether an APPEND has been accepted before request `i` to the same stream and is not written yet (R30). -/
def State.earlierAppend (s : State) (i : Nat) (r : Req) : Bool :=
  s.reqs.any fun kv => decide (kv.1 < i) && kv.2.kind == .append && kv.2.conv == r.conv && kv.2.layer == r.layer
    && kv.2.status.isNone

/-- Writes one token into its slot (R126): under HOLD its BF16 tail row, else its quantised row. -/
def writeToken (g : Geo) (img : Bytes) (a : AppendBlk) (data : Bytes) (base layer slot tok : Nat) (p : Page) : Page :=
  let xs := tokenElems a.dfmt g.channels data tok
  if p.hold then { p with tail := Map.insert p.tail slot (tailRow xs) }
  else
    let sr (c : Nat) : Option Nat := if a.sr then some (Config.random16 (base + tok * g.channels + c) % 65536) else none
    let row := quantToken p.fmt p.evar (imgClip img layer) (groupScales g p.params) sr xs
    { p with rows := Map.insert p.rows slot row }

/-- The page an accepted APPEND writes at a page-list entry. -/
def State.entryPage (s : State) (conv layer entry : Nat) : Option Nat :=
  (s.stream? conv layer).bind fun st => Map.find? st.entries entry

/-- Writes and counts an APPEND's tokens of one page: PGEN rises once (R47), the fill count reaches them (R29), and the 256th
slot triggers the seal (R133). -/
def writePage (r : Req) (a : AppendBlk) (g : Geo) (img data : Bytes) (base entry : Nat) (s : State) : State :=
  match s.entryPage r.conv r.layer entry with
  | none => s
  | some h =>
    let toks := (List.range a.count).filter fun j => (r.firstSlot + j) / 256 == entry
    let fillTo := (toks.foldl (fun n j => max n ((r.firstSlot + j) % 256 + 1)) 0)
    let w (p : Page) : Page :=
      let q := toks.foldl (fun x j => writeToken g img a data base r.layer ((r.firstSlot + j) % 256) j x) p
      { q with fill := max q.fill fillTo, pgen := q.pgen + 1, sealing := q.sealing || decide (256 ≤ fillTo) }
    let region := match Map.find? s.pages h with | some p => p.region | none => 0
    let hold := match Map.find? s.pages h with | some p => p.hold | none => false
    let fmt := match Map.find? s.pages h with | some p => p.fmt | none => 3
    let bytes := toks.length * (if hold then 2 * g.channels else rowBytes g fmt + scaleBytes g fmt)
    let part := match Map.find? s.pages h with | some p => p.part | none => noHolder
    crossDie (region / 4) 2 false bytes (hbmAccess region part false bytes (s.updPage h w))

/-- Whether every region an APPEND writes in has a pod that can quantise for it (R116, R321); the pods that take it. -/
def State.appendPods (s : State) (r : Req) (entries : List Nat) : Option (List (Nat × Nat)) :=
  entries.mapM fun e => (s.entryPage r.conv r.layer e).bind fun h => (Map.find? s.pages h).bind fun p =>
    (s.choosePod p.region r.part r.profile r.version fun _ => true).map fun k => (p.region, k)

/-- Whether a mirrored stream's Buoy lets an APPEND complete (R346): only a RESYNCED stream waits for it. -/
def State.buoyHolds (s : State) (r : Req) : Bool :=
  match s.stream? r.conv r.layer with
  | none => true
  | some st =>
    if st.mstate ≠ 2 ∨ st.mirror = 0 then true
    else if st.mirror = 1 then decide (r.nextSlot - st.buoy ≤ st.k)
    else decide (r.nextSlot ≤ st.buoy)

/-- Marks new slots for the mirror engine's open batch (R345). -/
def openBatch (r : Req) (s : State) : State :=
  s.updStream r.conv r.layer fun x =>
    if x.mstate = 2 ∧ x.buoy ≤ r.firstSlot then { x with batchFrom := some (x.batchFrom.getD r.firstSlot) } else x

/-- Writes an accepted APPEND's slots (R126). Its deleted conversation's pages take them too (R41). -/
def writeAppend (i : Nat) (r : Req) (s : State) : State :=
  let a := AppendBlk.ofBlock r.blk
  let img := s.image r.profile r.version
  let g := Geo.ofImage img
  let entries := ((List.range a.count).map fun j => (r.firstSlot + j) / 256).eraseDups
  match s.appendPods r entries with
  | none => s
  | some pods =>
    let s1 := pods.foldl (fun t rp => useProfile rp.1 rp.2 r.profile r.version t) s
    let base := s1.fresh
    let s2 : State := if a.sr then { s1 with fresh := base + a.count * g.channels } else s1
    let before := s2.pages
    let s3 := entries.foldl (fun t e => writePage r a g img (r.blk.drop 64) base e t) s2
    let last := (r.firstSlot + a.count - 1) / 256
    let s4 := if a.sealAfter then
        match s3.entryPage r.conv r.layer last with
        | some h => s3.updPage h fun p => { p with sealing := p.sealing || p.state == .opened }
        | none => s3
      else s3
    let began := s4.pages.filter fun kv => kv.2.sealing && (match Map.find? before kv.1 with
      | some p => !p.sealing
      | none => true)
    openBatch r (s4.updReq i fun x => { x with gathered := true, sealCount := began.length })

/-- APPEND_COMPLETE: an accepted APPEND's slots are written and counted, in acceptance order (R30, R124), and it commits once the
mirror mode lets it (R346). -/
def appendComplete (i : Nat) (s : State) : State :=
  match s.live i with
  | none => s
  | some r =>
    if r.kind ≠ .append ∨ !r.scanned ∨ s.earlierAppend i r then s
    else
      let s1 := if r.gathered then s else writeAppend i r s
      match s1.live i with
      | none => s1
      | some x =>
        if x.gathered ∧ s1.buoyHolds x then
          commitReq i .ok (appendResult x.id 0 x.created x.sealCount x.conv x.firstSlot x.nextSlot) s1
        else s1

/-- APPEND_COMPLETE. -/
def execAppendComplete (req : Nat) (s : State) : Host.Outcome State Fault Refusal :=
  ok (whenReady (appendComplete req) s)

end Sys2Proof.Machine
end

