-- ==== Sys2Proof/Machine/P256.lean ====
section
/-! DEFINITION. ECDSA verification over the curve P-256 (FIPS 186), by which the boot ROM checks a header's signature (R376). The spec
uses it by name: the algorithm and the big-endian order of a key's and a signature's halves are that standard's (PRESUMED: taken from
the named standard, log entry 8). -/
namespace Sys2Proof.P256

/-- The field's prime, the curve's constant term and the order of its generator; the other coefficient is minus three. -/
def prime : Nat := 2 ^ 256 - 2 ^ 224 + 2 ^ 192 + 2 ^ 96 - 1
def constant : Nat := 0x5ac635d8aa3a93e7b3ebbd55769886bc651d06b0cc53b0f63bce3c3e27d2604b
def order : Nat := 0xffffffff00000000ffffffffffffffffbce6faada7179e84f3b9cac2fc632551

/-- A point: x / z² and y / z³ are its coordinates, and z is 0 for the point at infinity. -/
structure Point where
  x : Nat
  y : Nat
  z : Nat
deriving DecidableEq, Repr

/-- The generator. -/
def base : Point :=
  ⟨0x6b17d1f2e12c4247f8bce6e563a440f277037d812deb33a0f4a13945d898c296,
   0x4fe342e2fe1a7f9b8ee7eb4a7c0f9e162bce33576b315ececbb6406837bf51f5, 1⟩

/-- The difference of two field elements. -/
def minus (a b : Nat) : Nat := (a + (prime - b % prime)) % prime

/-- A power modulo m, by the exponent's `n` low bits. -/
def power (m a e : Nat) : Nat → Nat
  | 0 => 1
  | n + 1 => let h := power m a (e / 2) n; if e % 2 = 0 then h * h % m else h * h % m * a % m

/-- The inverse modulo a prime below 2^256. -/
def inverse (m a : Nat) : Nat := power m a (m - 2) 256

/-- Twice a point. -/
def Point.twice (p : Point) : Point :=
  let yy := p.y * p.y % prime
  let s := 4 * p.x * yy % prime
  let m := 3 * minus p.x (p.z * p.z) * (p.x + p.z * p.z) % prime
  let x := minus (m * m) (2 * s)
  ⟨x, minus (m * minus s x) (8 * yy * yy), 2 * p.y * p.z % prime⟩

/-- The sum of two points. -/
def Point.plus (p q : Point) : Point :=
  if p.z = 0 then q
  else if q.z = 0 then p
  else
    let pz := p.z * p.z % prime
    let qz := q.z * q.z % prime
    let u := p.x * qz % prime
    let v := p.y * qz * q.z % prime
    let h := minus (q.x * pz) u
    let r := minus (q.y * pz * p.z) v
    if h = 0 then (if r = 0 then p.twice else ⟨1, 1, 0⟩)
    else
      let hh := h * h % prime
      let x := minus (r * r) (h * hh + 2 * (u * hh))
      ⟨x, minus (r * minus (u * hh) x) (v * (h * hh)), h * p.z * q.z % prime⟩

/-- A point times the `n` low bits of a number. -/
def Point.times (p : Point) (k : Nat) : Nat → Point
  | 0 => ⟨1, 1, 0⟩
  | n + 1 => let h := (p.times (k / 2) n).twice; if k % 2 = 0 then h else h.plus p

/-- The x coordinate of a point. -/
def Point.affine (p : Point) : Nat := p.x * inverse prime (p.z * p.z % prime) % prime

/-- Whether a point with z 1 lies on the curve. -/
def Point.valid (p : Point) : Bool :=
  decide (p.x < prime ∧ p.y < prime ∧ p.y * p.y % prime = minus (p.x * p.x * p.x + constant) (3 * p.x))

/-- Whether a signature (r then s) of a digest verifies under a public key (X then Y). -/
def verify (key digest sig : Bytes) : Bool :=
  let q : Point := ⟨beAt key 0 32, beAt key 32 32, 1⟩
  let r := beAt sig 0 32
  let s := beAt sig 32 32
  let w := inverse order s
  let sum := (base.times (beAt digest 0 32 * w % order) 256).plus (q.times (r * w % order) 256)
  q.valid && decide (0 < r ∧ r < order ∧ 0 < s ∧ s < order) && sum.z != 0 && sum.affine % order == r

end Sys2Proof.P256
end

