-- ==== Sys2Proof/Machine/RuleTable.lean ====
section
/-! DEFINITION. The placement rule table and its pending changes (R181, R182, R184). -/
namespace Sys2Proof.Machine

/-- Whether an action may be stored (R182): no reserved bit, and no override to a format below 0x3. -/
def actionOk (a : Nat) : Bool := bitsOf a 14 18 == 0 && (!bitOf a 9 || decide (3 ≤ bitsOf a 10 4))

/-- The number of valid rules once the pending changes have run (log entry 34). -/
def Mex.lenAfter (m : Mex) : Nat :=
  m.changes.foldl (fun n c => if c.op = 0 then n + 1 else if c.op = 2 then n - 1 else n) m.rules.length

/-- Applies a change to the table (R181). -/
def applyRule (c : RuleChange) (rules : List Rule) : List Rule :=
  if c.op = 0 then rules.take c.pos ++ c.rule :: rules.drop c.pos
  else if c.op = 1 then rules.set c.pos c.rule
  else rules.eraseIdx c.pos

/-- The positions that the shift of a change writes in a table of `len` rules, first and last (R181, Table 7-9): an insertion from L
down to POS, a deletion from POS up to L − 1. A REPLACE shifts nothing. -/
def RuleChange.firstPos (c : RuleChange) (len : Nat) : Nat := if c.op = 0 then len else c.pos
def RuleChange.lastPos (c : RuleChange) (len : Nat) : Nat := if c.op = 0 then c.pos else len - 1

/-- MEX_SHIFT_POS (R184): the position last written by the shift that runs, some position between its first and its last; once it has
ended, its last. -/
def State.shiftPosition (s : State) : Nat :=
  match s.mex.changes with
  | c :: _ =>
    if c.op = 1 then s.mex.shiftPos
    else
      let a := c.firstPos s.mex.rules.length
      let b := c.lastPos s.mex.rules.length
      min a b + Config.shiftStep s.time % (max a b - min a b + 1)
  | [] => s.mex.shiftPos

/-- Commits the first pending change: the table is the new table, SHIFT_DONE is set for a shift, and one record is written. -/
def commitRule (s : State) : State :=
  match s.mex.changes with
  | [] => s
  | c :: rest =>
    let act (rs : List Rule) : Nat := match rs[c.pos]? with | some r => r.action | none => 0
    let rules := applyRule c s.mex.rules
    let master := match Map.find? s.reqs c.req with | some r => r.master | none => 0x080
    let s1 : State := { s with mex := { s.mex with rules, changes := rest, shiftPos := if c.op = 1 then s.mex.shiftPos else c.lastPos s.mex.rules.length } }
    let s2 := logCommand master (if c.op = 2 then 0x0B else 0x0A) c.pos (act s.mex.rules) (act rules) s1
    commitPlain c.req .ok (setCause pgMex 0 s2)

/-- Runs the REPLACEs at the front of the queue, which take one cycle each and shift nothing (R181). -/
def runReplaces : Nat → State → State
  | 0, s => s
  | fuel + 1, s =>
    match s.mex.changes with
    | c :: _ => if c.op = 1 then runReplaces fuel (commitRule s) else s
    | [] => s

/-- Takes back the pending change of a request (R160): the table stays as it is, a shift that ran for it stops, and the next change
takes its turn. DESIGN CHOICE, log entry 133: the spec does not say what an aborted shift leaves. -/
def dropChange (i : Nat) (s : State) : State :=
  runReplaces 17 { s with mex := { s.mex with changes := s.mex.changes.filter fun c => c.req != i } }

end Sys2Proof.Machine
end

