-- ==== Sys2Proof/Machine/Evict.lean ====
section
/-! DEFINITION. Eviction of CACHE pages (R196, R206, Table 8-5) and the resumption of what waited for it (R123). -/
namespace Sys2Proof.Machine

/-- Whether a page may be evicted now: sealed, CACHE, in HBM, with no accepted reader and held by no pod (R196, R50). -/
def Page.victim (p : Page) (part : Nat) : Bool :=
  p.part == part && p.state == .sealed && p.tier == 0 && !p.retained && !p.srcHeld && p.readers == [] && p.holders == 0

/-- The oldest-sealed page that may be evicted for a partition, the lower handle on a tie. -/
def State.nextVictim (s : State) (part : Nat) : Option Nat :=
  (s.pages.foldl (fun b kv =>
    if kv.2.victim part then
      match b with
      | some c => if kv.2.sealTime < c.2 then some (kv.1, kv.2.sealTime) else b
      | none => some (kv.1, kv.2.sealTime)
    else b) (none : Option (Nat × Nat))).map (·.1)

/-- Evicts a page (Table 8-5): to its shadow where it has a valid one (R187), else to ABSENT. -/
def evictPage (h : Nat) (s : State) : State :=
  let s1 := setCause pgTier 1 (s.bump pgTier 0x080)
  match Map.find? s.pages h with
  | some p => if p.shadow.isSome then descend h s1 else toAbsent h s1
  | none => s

/-- Evicts pages of a partition, oldest seal first, until `fits`; `fuel` bounds their number. -/
def evictUntil (part : Nat) (fits : State → Bool) : Nat → State → State
  | 0, s => s
  | fuel + 1, s =>
    if fits s then s
    else match s.nextVictim part with
      | none => s
      | some h => evictUntil part fits fuel (evictPage h s)

/-- Runs the requests that waited behind an APPEND which has left check 10 (R123), in order. A conversation deleted meanwhile is then
taken apart. -/
def resumeBehind (i : Nat) (r : Req) (s : State) : State :=
  let s1 := s.updReq i fun x => { x with behind := [] }
  let s2 := r.behind.foldl (fun t w => if w.2.1 = opSeal then runSeal w.1 w.2.2 t else runAppend w.1 w.2.2 t) s1
  if (s.heldConv r.conv).isNone then sweep s2 else s2

/-- Whether an APPEND still waits at check 10. -/
def State.atCheck10 (s : State) (i : Nat) : Bool :=
  match s.live i with | some x => x.kind == .append && !x.scanned | none => false

/-- Takes an APPEND that waits at check 10 through its checks again (R123): one that creates a conversation takes its slot now (R38). It
was not accepted, so one whose conversation was deleted meanwhile is ABSENT (R41, R418). -/
def retryAppend (i : Nat) (r : Req) (s : State) : State :=
  let part := r.part.getD 0
  let stop (st : Status) : State := commitReq i st (appendResult r.id st.code false 0 0 0 0) s
  let s1 := if r.created then
      match s.freeSlot part with
      | none => stop .full
      | some (slot, gen) =>
        let (h, t) := makeConv part slot gen r.profile r.slot s
        appendOn r.src r.blk part h r.profile 0 true (some i) s t
    else match s.heldConv r.conv with
      | some c => appendOn r.src r.blk part r.conv r.profile c.cls false (some i) s s
      | none => stop .absent
  if s1.atCheck10 i then s1 else resumeBehind i r s1

/-- EVICTION: the APPEND that waits at check 10 tries its reservation; while it does not fit, a victim page is evicted for it
(R206). -/
def evictFor (i : Nat) (s : State) : State :=
  match s.live i with
  | none => s
  | some r =>
    if !s.atCheck10 i then s
    else
      let t := retryAppend i r s
      if !t.atCheck10 i then t
      else match t.nextVictim (r.part.getD 0) with
        | some h => retryAppend i r (evictPage h t)
        | none => t

/-- EVICTION. -/
def execEviction (req : Nat) (s : State) : Host.Outcome State Fault Refusal := ok (whenReady (whenOpen 21 (evictFor req)) s)

end Sys2Proof.Machine
end

