-- ==== Sys2Proof/Machine/Mirror.lean ====
section
/-! DEFINITION. The mirror engine (R344 to R351): Buoy records and batches at the primary, their application at the partner, and
the release of copies. -/
namespace Sys2Proof.Machine

/-! ## Buoy records -/

/-- A Buoy record (Table 14-4). -/
structure BuoyRec where
  conv : Nat
  layer : Nat
  seals : Bool
  resync : Bool
  release : Bool
  entry : Nat
  buoy : Nat
  pgen : Nat
  batch : Nat
  page : Nat
deriving DecidableEq, Repr

/-- The 64 bytes of a record. -/
def BuoyRec.bytes (b : BuoyRec) : Bytes :=
  toLE 8 b.conv ++ [BitVec.ofNat 8 b.layer,
      BitVec.ofNat 8 ((if b.seals then 1 else 0) + (if b.resync then 2 else 0) + (if b.release then 4 else 0))]
    ++ zeros 2 ++ toLE 4 (b.entry % 65536) ++ toLE 4 b.buoy ++ toLE 2 b.pgen ++ zeros 2 ++ toLE 8 b.batch ++ toLE 8 b.page
    ++ zeros 24

/-- Reads a record. -/
def BuoyRec.ofBlock (b : Bytes) : BuoyRec :=
  { conv := leAt b 0 8, layer := byteAt b 8, seals := bitOf (byteAt b 9) 0, resync := bitOf (byteAt b 9) 1,
    release := bitOf (byteAt b 9) 2, entry := leAt b 12 2, buoy := bitsOf (leAt b 16 4) 0 25, pgen := leAt b 20 2,
    batch := leAt b 24 8, page := leAt b 32 8 }

/-! ## At the primary -/

/-- The Keeper connection to a partition's partner. -/
def State.partnerConn (s : State) (part : Nat) : Option (Nat × Nat) :=
  ((s.part? part).bind (·.partner)).bind fun n => (s.keeperConn n).map fun i => (n, i)

/-- Sends mirror data as a relaxed WRITE and then a record as a FIN WRITE (R345); where in the partner's region they go is the
model's choice (log entry 27). -/
def sendMirror (node conn slot : Nat) (data : Bytes) (b : BuoyRec) (key : Nat) (s : State) : State :=
  let rkey := Config.mirrorRkey node
  let s1 := if data = [] then s else sendMessage conn (keeperMsg 2 false false 3 data rkey 64) s
  let o : Outgoing := { keeperMsg 2 true false 3 b.bytes rkey 0 with stream := key, buoy := b.buoy, page := b.page, seals := b.seals }
  countUp pgRes 0x0A8 data.length (meter slot 4 (data.length + 64) (sendMessage conn o s1))

/-- Sends what is mirrored of a page, which comes out of its HBM where it lies there (R21). -/
def sendMirrored (p : Page) (node conn : Nat) (data : Bytes) (b : BuoyRec) (key : Nat) (s : State) : State :=
  sendMirror node conn p.slot data b key (if p.hbmBlocks = 0 then s else mirrorAccess p true data.length s)

/-- A slot's stored bytes as they are mirrored: its tail row while it has no sealed form, else its stored row (R345). -/
def Page.mirrorSlot (p : Page) (keys : Bytes) (h i : Nat) : Bytes :=
  let plain := if p.hold ∧ p.state = .opened then Map.getD p.tail i [] else
    match Map.find? p.rows i with | some r => r.elems ++ r.scales | none => []
  slice (Config.mirrorForm keys h i plain) 0 plain.length

/-- The position after the last slot of a page-list entry that a record covers: the entry's end for a sealed page, which
takes no more slots, else its fill (log entry 28). -/
def Page.covers (p : Page) (entry : Nat) : Nat := if p.state = .opened then 256 * entry + p.fill else 256 * (entry + 1)

/-- The data of a batch that mirrors the slots of a page from `from_` on. -/
def State.slotData (s : State) (h entry from_ : Nat) (p : Page) : Bytes :=
  let keys := s.partKeys p.part
  let c := ((List.range p.fill).filter fun j => decide (from_ ≤ 256 * entry + j)).flatMap fun j => p.mirrorSlot keys h j
  c ++ slice (Config.mirrorTags keys h p.pgen c) 0 (8 * ceilDiv c.length 1024)

/-- Sends one batch for a page-list entry: its slots from `from_` on, or in a resync a sealed page whole (R345, R349). -/
def sendEntry (conv layer entry from_ : Nat) (resync : Bool) (s : State) : State :=
  match s.pageAt conv layer entry, s.stream? conv layer with
  | some (h, p), some st =>
    match s.partnerConn p.part with
    | none => s
    | some (node, conn) =>
      let whole := resync && p.state != .opened
      let data := if whole then s.protectedPage h p ++ p.sketch else s.slotData h entry from_ p
      let b : BuoyRec := { conv, layer, seals := whole, resync, release := false, entry, buoy := p.covers entry, pgen := p.pgen,
                           batch := st.batch + 1, page := h }
      sendMirrored p node conn data b (streamKey conv layer + 1)
        (s.updStream conv layer fun x => { x with batch := x.batch + 1 })
  | _, _ => s

/-- Page-list entries of a stream that reach beyond a slot position, in order. -/
def State.entriesBeyond (s : State) (conv layer pos : Nat) : List Nat :=
  match s.stream? conv layer with
  | none => []
  | some st => st.entries.filterMap fun kv => match Map.find? s.pages kv.2 with
      | some p => if p.state != .absent && !p.refill && decide (pos < p.covers kv.1) then some kv.1 else none
      | none => none

/-- Closes a stream's open batch (R345): one record per page-list entry it touches (log entry 28). -/
def closeBatch (conv layer : Nat) (s : State) : State :=
  match s.stream? conv layer with
  | none => s
  | some st =>
    match st.batchFrom with
    | none => s
    | some f =>
      if st.mstate ≠ 2 then s
      else
        let s1 := (s.entriesBeyond conv layer f).foldl (fun t e => sendEntry conv layer e f false t) s
        s1.updStream conv layer fun x => { x with batchFrom := none }

/-- MIRROR_BATCH_CLOSE. -/
def execMirrorBatchClose (conv layer : Nat) (s : State) : Host.Outcome State Fault Refusal :=
  ok (whenReady (whenOpen 22 (closeBatch conv layer)) s)

/-- Sends a page's final tags and sketch, and under HOLD or after a refill its sealed form, with a SEAL record (R348). -/
def mirrorSeal (conv layer entry : Nat) (wasRefill : Bool) (s : State) : State :=
  match s.pageAt conv layer entry, s.stream? conv layer with
  | some (h, p), some st =>
    match s.partnerConn p.part with
    | none => s
    | some (node, conn) =>
      if st.mstate ≠ 2 ∨ !st.retained then s
      else
        let all := s.protectedPage h p
        let g := s.pageGeo p
        let form := if p.hold ∨ wasRefill then all else all.drop (cipherBytes g p.fmt)
        let b : BuoyRec := { conv, layer, seals := true, resync := false, release := false, entry,
                             buoy := max st.buoy (p.covers entry), pgen := p.pgen, batch := st.batch + 1, page := h }
        sendMirrored p node conn (form ++ p.sketch) b (streamKey conv layer + 1)
          (s.updStream conv layer fun x => { x with batch := x.batch + 1 })
  | _, _ => s

/-- Puts a stream into RESYNCING (R344, R349): nothing of it counts as mirrored yet. -/
def enterResync (conv layer : Nat) (s : State) : State :=
  s.updStream conv layer fun x => { x with mstate := 1, buoy := 0, sent := 0, batchFrom := none }

/-- The RETAINED streams of a partition's own conversations. -/
def State.retainedStreams (s : State) (part : Nat) : List (Nat × Nat) :=
  (s.streams.filter fun kv => kv.2.retained && (match Map.find? s.convs (kv.1 / 256) with
    | some c => c.part == part && c.primaryNode.isNone && !c.deleting
    | none => false)).map fun kv => (kv.1 / 256, kv.1 % 256)

/-- A RESYNCING stream whose copy has reached its last slot becomes RESYNCED (R349). -/
def checkResynced (conv layer : Nat) (s : State) : State :=
  match s.stream? conv layer with
  | none => s
  | some st =>
    if st.mstate = 1 ∧ s.entriesBeyond conv layer st.buoy = [] then
      let part := match Map.find? s.convs conv with | some c => some c.part | none => none
      raise (eventFor part 0 8 0x0802 pgRes) (s.updStream conv layer fun x => { x with mstate := 2, batchFrom := none })
    else s

/-- The mirror engine copies a RESYNCING stream in page-list order (R349): every entry it has not sent yet. -/
def resync (conv layer : Nat) (s : State) : State :=
  match s.stream? conv layer, Map.find? s.convs conv with
  | some st, some c =>
    if st.mstate ≠ 1 ∨ (s.partnerConn c.part).isNone then s
    else
      let es := s.entriesBeyond conv layer st.sent
      let far := es.foldl (fun n e => match s.pageAt conv layer e with | some (_, p) => max n (p.covers e) | none => n) st.sent
      let s1 := es.foldl (fun t e => sendEntry conv layer e st.sent true t) s
      checkResynced conv layer (s1.updStream conv layer fun x => { x with sent := far })
  | _, _ => s

/-- MIRROR_RESYNC. -/
def execMirrorResync (conv layer : Nat) (s : State) : Host.Outcome State Fault Refusal :=
  ok (whenReady (whenOpen 22 (resync conv layer)) s)

/-- MIRROR_RETRY: after BATCH_US the engine tries a refused stream again (R351). -/
def execMirrorRetry (conv layer : Nat) (s : State) : Host.Outcome State Fault Refusal :=
  ok (whenReady (whenOpen 22 (resync conv layer)) s)

/-- What a LOOKUP waits for at the mirror (R54): a stream's Buoy at a slot position, as one number. -/
def mirrorGoal (key next : Nat) : Nat := key * 2 ^ 32 + next

/-- Whether a goal is met: the Buoy has reached it, or the stream is no longer RESYNCED, so that nothing waits for its mirror (R349). -/
def State.goalMet (s : State) (g : Nat) : Bool :=
  match Map.find? s.streams (g / 2 ^ 32) with
  | some st => st.mstate != 2 || decide (g % 2 ^ 32 ≤ st.buoy)
  | none => true

/-- Completes the LOOKUPs whose attached pages the mirror has sent (R54). -/
def settleLookups (s : State) : State :=
  let mine := Map.filterKV s.reqs fun _ r => r.kind == .lookup && r.status.isNone && r.waits != [] && r.waits.all s.goalMet
  mine.foldl (fun t kv => commitReq kv.1 .ok kv.2.res t) s

/-- The completion of a record's FIN WRITE at the sender (R257, R345, R348, R351): the Buoy advances and a seal is
mirror-complete, or a refused batch puts the stream back into RESYNCING. -/
def mirrorAcked (m : TxMsg) (s : State) : State :=
  if m.stream = 0 then s
  else
    let conv := (m.stream - 1) / 256
    let layer := (m.stream - 1) % 256
    if m.err = 0 then
      let s1 := s.updStream conv layer fun x => { x with buoy := max x.buoy m.buoy }
      settleLookups (checkResynced conv layer (if m.seals then s1.updPage m.page fun p => { p with mirrored := true } else s1))
    else settleLookups (enterResync conv layer s)

/-- The RELEASE record of a conversation, or of every copy for a tenant (R351). -/
def releaseRec (conv : Nat) : BuoyRec :=
  { conv, layer := 0, seals := false, resync := false, release := true, entry := 0, buoy := 0, pgen := 0, batch := 0, page := 0 }

/-- Sends a release to a partition's partner, or keeps it for when the connection returns (R351). -/
def sendRelease (part conv : Nat) (s : State) : State :=
  match s.part? part with
  | none => s
  | some p =>
    match p.partner with
    | none => s
    | some node =>
      match s.keeperConn node with
      | some conn => sendMirror node conn 16 [] (releaseRec conv) 0 s
      | none =>
        if p.releases.length < 4096 then s.updPart part fun x => { x with releases := x.releases ++ [conv] }
        else raise (eventFor (some part) 4 8 0x0804 pgRes conv) s

/-- The partitions whose partner is a node. -/
def State.partneredWith (s : State) (node : Nat) : List Nat := Map.keys (Map.filterKV s.parts fun _ p => p.partner == some node)

/-- The loss of the connection to partners (R349): every stream is OFF in effect. -/
def mirrorLost (node : Nat) (s : State) : State :=
  settleLookups ((s.partneredWith node).foldl (fun t part =>
    let t1 := (t.retainedStreams part).foldl (fun u k => u.updStream k.1 k.2 fun x => { x with mstate := 0, batchFrom := none }) t
    setCause pgRes 6 (raise (eventFor (some part) 3 8 0x0801 pgRes) t1)) s)

/-- The return of the connection (R351, R401): kept releases go first, then every RETAINED stream that is not RESYNCED enters
RESYNCING. -/
def mirrorBack (node : Nat) (s : State) : State :=
  (s.partneredWith node).foldl (fun t part =>
    let kept := match t.part? part with | some p => p.releases | none => []
    let t1 := kept.foldl (fun u c => sendRelease part c u) (t.updPart part fun x => { x with releases := [] })
    (t1.retainedStreams part).foldl (fun u k => match u.stream? k.1 k.2 with
      | some st => if st.mstate = 2 then u else enterResync k.1 k.2 u
      | none => u) t1) s

/-! ## At the partner -/

/-- The copies of a primary that a release names: one conversation, or with only the tenant set every one of the tenant. -/
def State.copiesOf (s : State) (node conv : Nat) : List Nat :=
  Map.keys (Map.filterKV s.convs fun h c => c.primaryNode == some node && !c.deleting &&
    (if conv % 2 ^ 52 = 0 then hTenant h == hTenant conv else h == conv))

/-- Releases copies (R351); their pages stay until no request reads them. -/
def releaseCopies (hs : List Nat) (s : State) : State :=
  sweep (hs.foldl (fun t h => { t with convs := Map.adjust t.convs h fun c => { c with deleting := true } }) s)

/-- A mirror copy of a conversation, as its first record makes it; what the record does not carry is free (log entry 29). -/
def copyConv (node part : Nat) (b : BuoyRec) : Conv :=
  { part, profile := Config.mirrorMeta b.conv b.layer 0 % 65536, cls := Config.mirrorMeta b.conv b.layer 1 % 256, slot := 16,
    primaryNode := some node, deleting := false, freezer := none, frozenAt := 0, answered := false, held := [] }

/-- The stream of a mirror copy, as its first record makes it. -/
def copyStream (b : BuoyRec) : Stream :=
  { Stream.initial (Config.mirrorMeta b.conv b.layer 2 % 16) (Config.mirrorMeta b.conv b.layer 3 % 256) with
    retained := true, mirror := Config.mirrorMeta b.conv b.layer 4 % 3, k := Config.mirrorMeta b.conv b.layer 5 % 16 + 1 }

/-- Takes room for the page a record names at the partner, evicting CACHE pages (R351): none where there is none. A copy held already is
shared, up to the bound of R55; past it the conversation stores its own, under a serial of the partner's. -/
def copyPage (part : Nat) (b : BuoyRec) (c : Conv) (st : Stream) (s : State) : Option State :=
  let put (t : State) (h r : Nat) : State := (writeMeta part 0 (streamKey b.conv b.layer) t).updStream b.conv b.layer fun x =>
    { x with entries := Map.insert x.entries b.entry h, home := match x.home with | some k => some k | none => some r }
  let img := s.image c.profile 0
  let g := Geo.ofImage img
  let need := openBlocks g st.fmt
  let fits (t : State) : Bool := decide (need ≤ t.partFree part (t.bestRegion part))
  let s1 := evictUntil part fits s.pages.length s
  let own (t : State) (h : Nat) : Option State :=
    if !fits t then none
    else
      let ver := match t.resident c.profile with | some (_, x) => x.ver | none => 0
      let r := t.bestRegion part
      let s2 := match Map.find? st.entries b.entry with | some old => releaseShare b.conv old t | none => t
      some (put (s2.putPage h (Page.opening part b.conv b.layer b.entry r c.slot c.profile ver st g img false false)) h r)
  match Map.find? s.pages b.page with
  | some p =>
    if p.shares < 0xFFFFFF then
      some (put (s.updPage b.page fun q => { q with shares := q.shares + 1 }) b.page p.lastRegion)
    else
      let (serial, t) := takeSerial part s1
      own t (mkPage (hTenant b.conv) t.nodeId serial)
  | none => own s1 b.page

/-- The bytes of the slots that a record brings to its copy (R345, R348): a slot's stored bytes, or its tail bytes until the seal. -/
def copyBytes (g : Geo) (b : BuoyRec) (p : Page) : Nat :=
  if p.state ≠ .opened then 0
  else
    let upto := min 256 (b.buoy - 256 * b.entry)
    let new := ((List.range upto).filter fun j => b.resync || decide (p.fill ≤ j)).length
    let stored := rowBytes g p.fmt + scaleBytes g p.fmt
    if p.hold then (if b.seals then max p.fill upto * stored else new * (2 * g.channels)) else new * stored

/-- What a record's slots and seal make of the copy's page (R345, R348); a sealed page never changes (R185). -/
def copyFill (g : Geo) (rec_ : Bytes) (b : BuoyRec) (now : Nat) (p : Page) : Page :=
  if p.state ≠ .opened then p else
  let upto := min 256 (b.buoy - 256 * b.entry)
  let new := (List.range upto).filter fun j => b.resync || decide (p.fill ≤ j)
  let tails := if p.hold ∧ !b.seals then
      new.foldl (fun m j => Map.insert m j (slice (Config.mirrorImage rec_ 0 j) 0 (2 * g.channels))) p.tail
    else p.tail
  let fresh := if p.hold ∧ b.seals then List.range (max p.fill upto) else if p.hold then [] else new
  let row (j : Nat) : Row :=
    { elems := slice (Config.mirrorImage rec_ 0 j) 0 (rowBytes g p.fmt),
      scales := slice (Config.mirrorImage rec_ 0 j) (rowBytes g p.fmt) (scaleBytes g p.fmt) }
  let rows := fresh.foldl (fun m j => Map.insert m j (row j)) p.rows
  let q : Page := { p with fill := max p.fill upto, pgen := b.pgen, tail := tails, rows }
  if b.seals then
    let params := if p.hold then slice (Config.mirrorImage rec_ 1 0) 0 (paramBytes g p.fmt) else p.params
    { q with state := .sealed, sealing := false, sealTime := now, params, sketch := slice (Config.mirrorImage rec_ 2 0) 0 (sketchBytes g),
             sketchHeld := true, blocks := if p.hold then p.rsvBlocks else p.blocks, rsvBlocks := 0 }
  else q

/-- BUOY_RECORD_APPLY (R345, R351): none where the batch is refused, for want of the tenant's partition here, of room in its share,
or because the conversation is not a copy. -/
def applyRecord (node : Nat) (rec_ : Bytes) (s : State) : Option State :=
  let b := BuoyRec.ofBlock rec_
  if b.release then some (releaseCopies (s.copiesOf node b.conv) s)
  else match s.tenantPart (hTenant b.conv) with
    | none => none
    | some part =>
      let own : Bool := match Map.find? s.convs b.conv with | some c => c.primaryNode != some node || c.deleting | none => false
      if own ∨ !s.partActive part then none
      else
        let c := (Map.find? s.convs b.conv).getD (copyConv node part b)
        let st := (s.stream? b.conv b.layer).getD (copyStream b)
        if b.batch ≤ st.appliedBatch then some s
        else
          let s0 := if Map.has s.convs b.conv then s else writeMeta part 1 b.conv s
          let s1 := ({ s0 with convs := Map.insert s.convs b.conv c } : State).putStream b.conv b.layer st
          let s2 := if Map.find? st.entries b.entry = some b.page then some s1 else copyPage part b c st s1
          s2.map fun t =>
            let g := Geo.ofImage (t.image c.profile 0)
            let held := match t.pageAt b.conv b.layer b.entry with | some (h, _) => h | none => b.page
            let came (t : State) : State := match Map.find? t.pages held with
              | some p => mirrorAccess p false (copyBytes g b p) t
              | none => t
            sweep (((came t).updPage held (copyFill g rec_ b t.time)).updStream b.conv b.layer fun x =>
              { x with appliedBatch := b.batch, buoy := b.buoy, next := max x.next b.buoy })

end Sys2Proof.Machine
end

