-- ==== Sys2Proof/Machine/Seal.lean ====
section
/-! DEFINITION. The placement of a page in a tier (R189, R190, R192, R205, R399), the seal sequence (R135 to R140), the release of a
sealed page's tail (R31) and the loading of missing sketches (R140). -/
namespace Sys2Proof.Machine

/-! ## Placement in a tier -/

/-- Marks a page held hot or not (R189). -/
def holdHot (h : Nat) (v : Bool) (s : State) : State := s.updPage h fun p => { p with heldHot := v }

/-- A TIER target has been set in train (R189): it is carried out where the page now lies in the tier, and else when the migration that
serves it ends. -/
def serveTarget (h target : Nat) (s : State) : State :=
  s.updPage h fun p =>
    if p.state = .migrating ∧ !p.restoring then { p with target := some target }
    else if p.tier = target then { p with heldHot := decide (target = 0) }
    else p

/-- This node's role: 0 CACHE, 1 MERGE, 2 LEND, 3 MIXED (R356). -/
def State.role (s : State) : Nat := s.field pgCmp 0x040 0 2

/-- Carries out a page's TIER target in a UNIFIED partition (R189, R190, R205, R206, R399). A page that is migrating, or whose last
migration's source copy is not yet released, stays as it is and the target is skipped (R194; log entry 30). -/
def carryTier (h target : Nat) (s : State) : State :=
  match Map.find? s.pages h with
  | none => s
  | some p =>
    if target = 3 then s
    else if p.tier = target ∧ p.state ≠ .migrating then holdHot h (decide (target = 0)) s
    else if !p.movable then skipTarget s
    else if target = 0 then
      match beginPromote h s with
      | some t => serveTarget h 0 t
      | none => skipTarget s
    else if target = 1 then
      let r := beginDemote h s
      if r.1 = .ok then serveTarget h 1 r.2 else skipTarget r.2
    else if s.role = 2 ∨ !s.lendable p then skipTarget s
    else
      let r := beginLend h s
      if r.1 then serveTarget h 2 r.2 else skipTarget r.2

/-- Places a page that has sealed in a FLAGGED partition by its stream's flag (R192, R205, R399). -/
def placeByFlag (h flag : Nat) (s : State) : State :=
  match Map.find? s.pages h with
  | none => s
  | some p =>
    if flag = 1 then
      let r := beginDemote h s
      if r.1 = .ok then r.2 else skipTarget r.2
    else if flag = 2 then
      if s.lendable p then
        let r := beginLend h s
        if r.1 then r.2 else skipTarget r.2
      else skipTarget s
    else s

/-- The age bucket of a page sealed at `t` (Table 7-7). -/
def ageBucket (now t : Nat) : Nat :=
  let sec := (now - t) / 1000000000
  if sec = 0 then 0 else min 15 (Nat.log2 sec + 1)

/-- The lookup key of a page at a SEAL (1) or AGE (2) event (Table 7-7). -/
def State.pageKey (s : State) (p : Page) (age event : Nat) : Nat :=
  let cls := match Map.find? s.convs p.conv with | some c => c.cls | none => 0
  ruleKey (s.tenantOf p.part) p.profile cls p.layer age event p.retained p.tier

/-- Step 8's placement of a newly sealed page (R179, R189, R192). -/
def placeSealed (h : Nat) (s : State) : State :=
  match Map.find? s.pages h with
  | none => s
  | some p =>
    match s.part? p.part with
    | none => s
    | some x =>
      if x.flagged then
        placeByFlag h (match s.stream? p.conv p.layer with | some st => st.flag | none => 0) s
      else carryTier h (bitsOf (s.ruleAction (s.pageKey p 0 1)) 0 2) s

/-! ## Sketch store -/

/-- The home region of a page's stream (R22). -/
def State.homeOf (s : State) (p : Page) : Nat := ((s.stream? p.conv p.layer).bind (·.home)).getD p.lastRegion

/-- Units of a region's sketch store in use (R140). -/
def State.sketchUsed (s : State) (region : Nat) : Nat :=
  s.pages.foldl (fun n kv => if kv.2.sketchHeld ∧ s.homeOf kv.2 = region then n + sketchUnits (s.pageGeo kv.2) else n) 0

/-- Whether a page's sketch fits in its home region's store of 1,572,864 units. -/
def State.sketchFits (s : State) (p : Page) : Bool :=
  decide (s.sketchUsed (s.homeOf p) + sketchUnits (s.pageGeo p) ≤ 1572864)

/-! ## SEAL_SEQUENCE -/

/-- Whether an APPEND accepted before the trigger has not written its slots in the page (step 1 of Table 5-5). -/
def State.unwritten (s : State) (p : Page) : Bool :=
  s.reqs.any fun kv =>
    let r := kv.2
    let n := (AppendBlk.ofBlock r.blk).count
    r.kind == .append && r.status.isNone && r.scanned && !r.gathered && r.conv == p.conv && r.layer == p.layer
      && decide (r.firstSlot / 256 ≤ p.entry ∧ p.entry ≤ (r.firstSlot + n - 1) / 256)

/-- The image under which a page seals: under HOLD the one in force (R111), under ARRIVAL its own version's. -/
def State.sealImage (s : State) (p : Page) : Bytes :=
  if p.hold then (match s.resident p.profile with | some (_, x) => x.img | none => s.image p.profile p.version)
  else s.image p.profile p.version

/-- The page in its sealed form (steps 3 to 7): requantised under HOLD, with its sketch. `base` numbers its draws. -/
def sealedForm (img : Bytes) (base now : Nat) (fits : Bool) (p : Page) : Page :=
  let g := Geo.ofImage img
  let sr (slot c : Nat) : Option Nat := if p.sr then some (Config.random16 (base + slot * g.channels + c) % 65536) else none
  let q : Page := if p.hold then
      let z := sealTail g img p.layer p.fmt p.evar sr p.tail
      { p with params := z.1, rows := z.2, pgen := p.pgen + 1, blocks := p.rsvBlocks, rsvBlocks := 0 }
    else p
  { q with state := .sealed, sealing := false, refill := false, sealTime := now, age := 0, sketchHeld := fits,
           sketch := buildSketch g q.fmt q.evar q.params q.rows }

/-- Releases a sealed page's tail once no pod holds it and no request that bound it as open is in flight (R31, R50). -/
def releaseTail (h : Nat) (s : State) : State :=
  match Map.find? s.pages h with
  | none => s
  | some p =>
    let bound : Bool := s.reqs.any fun kv => kv.2.status.isNone && kv.2.items.any fun it => it.page == h && it.opened
    if p.state ≠ .opened ∧ p.tailBlocks ≠ 0 ∧ p.holders = 0 ∧ !bound then
      s.updPage h fun q => { q with tail := [], tailBlocks := 0 }
    else s

/-- Completes the SEAL requests that waited for a page to seal (R133). -/
def sealDone (h : Nat) (s : State) : State :=
  let mine := Map.filterKV s.reqs fun _ r => r.kind == .seal && r.status.isNone && r.waits.contains h
  mine.foldl (fun t kv =>
    let left := kv.2.waits.filter (· != h)
    let t1 := t.updReq kv.1 fun r => { r with waits := left }
    if left = [] then commitReq kv.1 .ok (appendResult kv.2.id 0 false kv.2.sealCount kv.2.conv 0 kv.2.nextSlot) t1 else t1) s

/-- Ends with ABSENT the SEAL requests that wait for a conversation's pages when it is deleted (R133, R136). -/
def sealAbsent (conv : Nat) (s : State) : State :=
  let mine := Map.filterKV s.reqs fun _ r => r.kind == .seal && r.status.isNone && r.conv == conv
  mine.foldl (fun t kv => commitReq kv.1 .absent (appendResult kv.2.id Status.absent.code false 0 kv.2.conv 0 0) t) s

/-- SEAL_SEQUENCE (Table 5-5). `tagOk` says whether the tail's tags passed at step 2. A page with a slot write outstanding, or whose
region has no pod to run the sequence, waits. -/
def sealSequence (h : Nat) (tagOk : Bool) (s : State) : State :=
  match Map.find? s.pages h with
  | none => s
  | some p =>
    let deleted : Bool := match Map.find? s.convs p.conv with | some c => c.deleting | none => true
    if p.state ≠ .opened ∨ !p.sealing ∨ p.restoring ∨ deleted ∨ s.unwritten p then s
    else if p.hold ∧ !tagOk then s.updPage h fun q => { q with sealing := false }
    else
      let ver := match s.resident p.profile with | some (_, x) => x.ver | none => p.version
      match s.choosePod p.region (some p.part) p.profile ver (fun _ => true) with
      | none => s
      | some pod =>
        let img := s.sealImage p
        let g := Geo.ofImage img
        let s0 := closeBatch p.conv p.layer (useProfile p.region pod p.profile ver s)
        let base := s0.fresh
        let s1 : State := if p.hold ∧ p.sr then { s0 with fresh := base + 256 * g.channels } else s0
        let fits := s1.sketchFits p
        let s2 := s1.updPage h (sealedForm img base s1.time fits)
        let s3 := if p.hold then
            hbmAccess p.region p.part true (tailBytes g) (hbmAccess p.region p.part false (storedBytes g p.fmt) s2)
          else s2
        let home := s3.homeOf p
        let s4 := if fits then s3 else setCause (pgRegn home) 3 (s3.bump (pgRegn home) 0x078)
        let s5 := mirrorSeal p.conv p.layer p.entry p.refill (releaseTail h s4)
        placeSealed h (sealDone h s5)

/-- TAIL_RELEASE. -/
def execTailRelease (page : Nat) (s : State) : Host.Outcome State Fault Refusal := ok (whenReady (releaseTail page) s)

/-- The next missing sketch of a home region: the first of its streams with one, in page-list order (R140). -/
def State.missingSketch (s : State) (region : Nat) : Option Nat :=
  (s.streams.filter fun kv => kv.2.home == some region).findSome? fun kv =>
    kv.2.entries.findSome? fun e => match Map.find? s.pages e.2 with
      | some p =>
        if p.state ≠ .opened ∧ p.state ≠ .absent ∧ !p.sketchHeld ∧ p.sketch ≠ [] ∧ s.sketchFits p then some e.2 else none
      | none => none

/-- SKETCH_LOAD: with room in the store, the next missing sketch is loaded. -/
def sketchLoad (region : Nat) (s : State) : State :=
  match s.missingSketch region with
  | some h => s.updPage h fun p => { p with sketchHeld := true }
  | none => s

/-- SKETCH_LOAD. -/
def execSketchLoad (region : Nat) (s : State) : Host.Outcome State Fault Refusal := ok (whenReady (whenOpen region (sketchLoad region)) s)

end Sys2Proof.Machine
end

