-- ==== Sys2Proof/Machine/Merge.lean ====
section
/-! DEFINITION. MERGE (R146 to R157), ABORT and deadlines (R156, R160, R161), and the marking of late nodes (R153, R352). -/
namespace Sys2Proof.Machine

/-! ## The block -/

/-- The fields of a MERGE header (Table 6-1). -/
structure MergeBlk where
  id : Nat
  count : Nat
  normalised : Bool
  bf16 : Bool
  wire16 : Bool
  final : Bool
  qtok : Nat
  deadline : Nat
  margin : Nat
  profile : Nat
  epoch : Nat
  comp : Nat
deriving DecidableEq, Repr

/-- Reads a MERGE header. -/
def MergeBlk.ofBlock (b : Bytes) : MergeBlk :=
  let w := leAt b 8 4
  { id := blkId b, count := bitsOf w 0 7, normalised := bitOf w 7, bf16 := bitOf w 8, wire16 := bitOf w 9, final := bitOf w 10,
    qtok := bitsOf w 16 5, deadline := leAt b 12 4, margin := leAt b 16 2, profile := leAt b 20 2, epoch := leAt b 24 4,
    comp := leAt b 28 4 }

/-- The contributions a MERGE block lists (Table 6-2). -/
def contributionsOf (b : Bytes) : List Contribution :=
  (List.range (MergeBlk.ofBlock b).count).map fun k =>
    let o := 64 + 16 * k
    Contribution.initial (bitsOf (leAt b o 2) 0 12) (bitsOf (leAt b o 2) 12 2 == 1) (leAt b (o + 4) 4) (leAt b (o + 8) 4)

/-- The block of a contribution. -/
def Contribution.block (c : Contribution) (b : Bytes) : Bytes := slice b c.off c.len

/-- QTOK of a contribution block, QUERY or MERGE. -/
def Contribution.qtok (c : Contribution) (b : Bytes) : Nat :=
  if c.isMerge then (MergeBlk.ofBlock (c.block b)).qtok else (Query.ofBlock (c.block b)).qtok

/-- Whether two byte ranges are disjoint. -/
def apart (a c : Contribution) : Bool := decide (a.off + a.len ≤ c.off ∨ c.off + c.len ≤ a.off)

/-- Check 1 of Table 6-3; `depth` says how many levels of MERGE a block may still hold. -/
def mergeCheck1 : Nat → Bytes → Bool
  | 0, _ => false
  | depth + 1, b =>
    let m := MergeBlk.ofBlock b
    let cs := contributionsOf b
    decide (64 ≤ b.length ∧ b.length ≤ blockMax ∧ 1 ≤ m.count ∧ m.count ≤ 64 ∧ 64 + 16 * m.count ≤ b.length
      ∧ 1 ≤ m.qtok ∧ m.qtok ≤ 16 ∧ 1 ≤ m.deadline ∧ m.deadline ≤ 10000000 ∧ (m.final = true → m.normalised = true))
    && zbits b 8 4 11 5 && zbits b 8 4 21 11 && zerosAt b 18 2 && zerosAt b 22 2 && zerosAt b 32 32
    && ((List.range m.count).all fun k =>
      let o := 64 + 16 * k
      decide (bitsOf (leAt b o 2) 12 2 ≤ 1) && zbits b o 2 14 2 && zerosAt b (o + 2) 2 && zerosAt b (o + 12) 4)
    && (cs.all fun c =>
      decide (c.off % 64 = 0 ∧ 64 + 16 * m.count ≤ c.off ∧ c.off + c.len ≤ b.length ∧ c.qtok b = m.qtok)
        && (if c.isMerge then mergeCheck1 depth (c.block b) else Query.check1 (c.block b)))
    && ((List.range cs.length).all fun i => (List.range i).all fun j => match cs[i]?, cs[j]? with
      | some x, some y => apart x y
      | _, _ => true)
    && decide ((m.id :: cs.map fun c => blkId (c.block b)).Nodup)

/-! ## Results -/

/-- The status a code stands for; a code Table 12-5 does not list reads as INVALID_MODE (log entry 32). -/
def Status.ofCode (c : Nat) : Status :=
  ([.ok, .absent, .redirect, .busy, .full, .worn, .aborted, .alreadyDone, .denied, .integrity, .deadline, .staleEpoch] : List
    Status).getD c .invalidMode

/-- No contribution decided the status (Table 6-5). -/
def noneDecided : Nat := 0xFFFFFFFF

/-- A MERGE result that is not OK (Table 6-5). -/
def mergeRefusal (b : Bytes) (st : Status) (aux0 aux1 : Nat) : Bytes :=
  let m := MergeBlk.ofBlock b
  ResultHeader.bytes { id := m.id, status := st.code, flags := 0, qtok := m.qtok, heads := 0, dv := 0, eb := 0, attended := 0,
                       omitted := 0, aux0, aux1 }

/-- The entries of a MERGE's result (R154): merged, with the FINAL stages and normalised where asked, under the version bound at acceptance (R100). -/
def State.mergeEntries (s : State) (r : Req) (m : MergeBlk) : List Triple :=
  let img := s.image r.profile r.version
  let prog := if m.final then imgProgram img else []
  (List.range r.tokens).flatMap fun t => (List.range r.heads).map fun h =>
    let x := (Map.find? r.combined (t * 128 + h)).getD (emptyTriple r.dv)
    if m.normalised ∧ !x.isEmpty then normalise (if m.final then finalStages img prog h x else x) else x

/-- The result block of a MERGE that ends OK (Table 6-5). -/
def State.mergeResult (s : State) (r : Req) : Bytes :=
  let m := MergeBlk.ofBlock r.blk
  let es := s.mergeEntries r m
  let flag (b : Bool) (k : Nat) : Nat := if b then 2 ^ k else 0
  let hdr := ResultHeader.bytes
    { id := r.id, status := 0, qtok := r.tokens, heads := r.heads, dv := r.dv, eb := entryBytes r.dv m.bf16,
      flags := flag m.normalised 0 + flag (es.any Triple.isEmpty) 1 + (r.flags &&& 0x1C) + flag (es.any (·.nan)) 5,
      attended := r.pagesAttended, omitted := r.pagesOmitted, aux0 := r.aux0, aux1 := r.aux1.toNat }
  hdr ++ es.flatMap (entryOf r.dv m.bf16)

/-! ## Merge pods (R151, R404, R446) -/

/-- The bytes of merge state in each pod of a MERGE of `qtok` query tokens (R151): each pod holds whole query tokens, as many as fit
768 KiB at 8 + 4 × DV bytes an entry. Where whole tokens need a pod more than the rule's ⌈entries ÷ ⌊786,432 ÷ (8 + 4 × DV)⌋⌉, they
have it (DEDUCED, log entry 130). -/
def mergeShares (qtok heads dv : Nat) : List Nat :=
  let per := 786432 / (8 + 4 * dv) / max 1 heads
  (runs (max 1 per) qtok).map fun t => t.2 * heads * (8 + 4 * dv)

/-- Free bytes of a pod's first work-buffer area, none while it holds EXPANDED state (R446). -/
def Pod.mergeFree (p : Pod) : Nat :=
  if p.sets.any (·.expanded) then 0 else 768 * 1024 - p.sets.foldl (fun n x => n + x.bytes) 0

/-- Chooses pods of a region for shares of merge state, in pod order. -/
def State.placeMerge (s : State) (region : Nat) (allowed : Nat → Bool) (shares : List Nat) : Option (List Nat) :=
  let pods := (s.activePods region).filter fun k => allowed k && !(s.pod region k).stopped && !(s.region region).retired
  let step (acc : Option (List Nat × List Nat)) (b : Nat) : Option (List Nat × List Nat) := acc.bind fun (got, left) =>
    (left.find? fun k => decide (b ≤ (s.pod region k).mergeFree)).map fun k => (got ++ [k], left.filter (· != k))
  (shares.foldl step (some ([], pods))).map (·.1)

/-- Free work-buffer area of a region's active pods that a test allows. -/
def State.mergeArea (s : State) (region : Nat) (allowed : Nat → Bool) : Nat :=
  if (s.region region).retired then 0
  else ((s.activePods region).filter fun k => allowed k && !(s.pod region k).stopped).foldl (fun n k => n + (s.pod region k).mergeFree) 0

/-- The region and pods for merge state under a test of pods: the region with the most free area (R151). -/
def State.mergePlace (s : State) (allowed : Nat → Nat → Bool) (shares : List Nat) : Option (Nat × List Nat) :=
  let r := (List.range 16).foldl (fun b k => if s.mergeArea b (allowed b) < s.mergeArea k (allowed k) then k else b) 0
  (s.placeMerge r (allowed r) shares).map fun ps => (r, ps)

/-- The place of a partition's merge state (R151, R404): a STRICT partition's reserved pods first, then unreserved ones. -/
def State.mergeFor (s : State) (part : Nat) (shares : List Nat) : Option (Nat × List Nat) :=
  let free (r k : Nat) : Bool := (s.podOwner r k).isNone
  let mine (r k : Nat) : Bool := s.podOwner r k == some part
  if s.strict part then
    match s.mergePlace mine shares with
    | some x => some x
    | none => s.mergePlace free shares
  else s.mergePlace free shares

/-- Takes merge state in pods, as a set of the request numbered beyond its unit sets. -/
def takeMerge (i region : Nat) (pods shares : List Nat) (s : State) : State :=
  (pods.zip shares).foldl (fun t x => t.updPod region x.1 fun p =>
    { p with sets := p.sets ++ [{ req := i, set := 0x10000 + x.1, bytes := x.2, expanded := false, anchor := false, acc := [] }] }) s

/-- Trims a MERGE's reservation to the shape its first result reports (R151). -/
def trimMerge (i : Nat) (r : Req) (qtok heads dv : Nat) (s : State) : State :=
  takeMerge i r.mergeRegion r.mergePods (mergeShares qtok heads dv) (freeSets i s)

/-! ## ABORT -/

/-- Writes, in acceptance order, every accepted APPEND of a stream up to request `i` that is not written yet (R30, R123). -/
def flushAppends (i : Nat) (r : Req) (s : State) : State :=
  let mine := Map.filterKV s.reqs fun k x => decide (k ≤ i) && x.kind == .append && x.conv == r.conv && x.layer == r.layer
    && x.status.isNone && x.scanned && !x.gathered
  mine.foldl (fun t kv => writeAppend kv.1 kv.2 t) s

/-- A MERGE that ends keeps the receive area of each contribution outstanding at another node until its result has arrived, the ABORT sent
for it has completed, or its connection has failed, and discards what comes (R161). -/
def keepAreas (r : Req) (s : State) : State :=
  (r.contribs.filter fun c => c.state == 1 && c.rkey != 0).foldl (fun t c => discardLate c.rkey t) s

/-- The work of a RECLAIM stops (R160): its grants take placements again. DESIGN CHOICE, log entry 133. -/
def stopReclaim (gids : List Nat) (s : State) : State :=
  { s with tier := { s.tier with grantsOut := gids.foldl (fun m g => Map.adjust m g fun x => { x with noPlace := false }) s.tier.grantsOut } }

/-- The work of a ROLE stops (R160): no further step of Table 15-2 is taken; the new role, in force since step 1, stays. DESIGN CHOICE,
log entry 133. -/
def stopRole (i : Nat) (s : State) : State :=
  match s.cmp.change with
  | some c => if c.req = i then stopReclaim (Map.keys s.tier.grantsOut) { s.setReg pgCmp 0x040 c.new with cmp := { s.cmp with change := none } } else s
  | none => s

/-- Aborts a request of this node that is neither a MERGE nor past its commit point (R160). An APPEND past check 10 writes its
tokens all the same (R123; log entry 31). -/
def abortPlain (i : Nat) (r : Req) (s : State) : State :=
  match r.kind with
  | .query => failQuery i .aborted 0 0 s
  | .append =>
    let res := appendResult r.id Status.aborted.code false 0 0 0 0
    if r.scanned then commitReq i .aborted res (flushAppends i r s)
    else resumeBehind i r (commitReq i .aborted res s)
  | .seal => commitReq i .aborted (appendResult r.id Status.aborted.code false 0 0 0 0) s
  | .rule => commitPlain i .aborted (dropChange i s)
  | .reclaim => commitPlain i .aborted (stopReclaim r.waits s)
  | .role => commitPlain i .aborted (stopRole i s)
  | .forward => commitPlain i .aborted (keepAreas r s)
  | _ => commitPlain i .aborted s

/-- Sends an ABORT for a contribution outstanding at another node (R155, R161); its own result comes to the end of the same
receive region. The ABORT's own REQ_ID is free (DESIGN CHOICE, log entry 132: R161 gives it none). -/
def sendAbort (c : Contribution) (target slot : Nat) (s : State) : State :=
  let (n, s1) := s.draw
  let blk := toLE 8 (Config.freeChoice n) ++ toLE 8 target ++ zeros 48
  meter slot 4 blk.length (sendMessage c.link (keeperMsg 1 false true 2 blk (s1.rkey c.rkey) (receiveBytes - 64)) s1)

/-- The request that contribution `idx` of MERGE `i` became on this node. -/
def State.localOf (s : State) (i idx : Nat) : Option (Nat × Req) :=
  List.find? (fun kv => kv.2.src == .own i idx && kv.2.status.isNone) s.reqs

/-- Aborts the outstanding contributions of a MERGE (R155, R161); `depth` bounds the nesting of MERGEs on this node. -/
def abortContribs : Nat → Nat → State → State
  | 0, _, s => s
  | depth + 1, i, s =>
    match Map.find? s.reqs i with
    | none => s
    | some r =>
      (List.range r.contribs.length).foldl (fun t k =>
        match r.contribs[k]? with
        | none => t
        | some c =>
          if c.state ≠ 1 then t
          else if c.node = t.nodeId ∧ c.rkey = 0 then
            match t.localOf i k with
            | none => t
            | some (j, x) =>
              if x.kind = .merge then
                commitReq j .aborted (mergeRefusal x.blk .aborted noneDecided noneDecided) (keepAreas x (abortContribs depth j t))
              else abortPlain j x t
          else sendAbort c (blkId (c.block r.blk)) r.slot t) s

/-- Ends a MERGE with a status other than OK (R155, R156): its outstanding contributions are aborted. -/
def endMerge (i : Nat) (st : Status) (aux0 aux1 : Nat) (s : State) : State :=
  match Map.find? s.reqs i with
  | none => s
  | some r => commitReq i st (mergeRefusal r.blk st aux0 aux1) (keepAreas r (abortContribs 3 i s))

/-- Ends a MERGE because contribution `k` cannot be had (R148, R157). -/
def loseContribution (i k : Nat) (s : State) : State :=
  endMerge i .deadline k noneDecided (s.updReq i fun r => { r with contribs := r.contribs.modify k fun c => { c with state := 3 } })

/-- ABORT (R160): it takes no request entry and leaves no record. -/
def runAbort (src : Src) (blk : Bytes) (s : State) : State :=
  let target := leAt blk 8 8
  let master := s.masterOf src
  let answer (st : Status) (t : State) : State :=
    deliver src 1 (blkId blk) st.code 0 16 (resultBlock (blkId blk) st.code 0 0 0) t
  if blk.length ≠ 64 ∨ !zerosAt blk 16 48 then answer .invalidMode s
  else
    let mine (r : Req) : Bool := r.kind != .profile && r.master == master && r.id == target
    match List.find? (fun kv => mine kv.2 && kv.2.status.isNone) s.reqs with
    | some (i, r) =>
      answer .ok (if r.kind = .merge then endMerge i .aborted noneDecided noneDecided s else abortPlain i r s)
    | none =>
      if (s.reqs.any fun kv => mine kv.2) ∨ (s.done.any fun d => d.1 == target && d.2.1 == master) then answer .alreadyDone s
      else answer .absent s

/-- ABORT: never refused with BUSY (R162), also while the boot waits; in recovery it completes with INVALID_MODE (R377). -/
def execAbort (src : Src) (blk : Bytes) (s : State) : Host.Outcome State Fault Refusal :=
  ok (match s.phase with
    | .waitPwrFail => runAbort src blk s
    | .recovery => deliver src 1 (blkId blk) Status.invalidMode.code 0 16 (resultBlock (blkId blk) Status.invalidMode.code 0 0 0) s
    | _ => serving opAbort src blk (runAbort src blk) s)

/-- DEADLINE_EXPIRY (R156): a request whose deadline has passed before its commit point. -/
def deadlineExpiry (i : Nat) (s : State) : State :=
  match s.live i with
  | none => s
  | some r =>
    match r.deadline with
    | none => s
    | some d =>
      if s.time < d then s
      else match r.kind with
        | .merge => endMerge i .deadline noneDecided noneDecided s
        | .query => failQuery i .deadline 0 0 s
        | .forward => commitPlain i .deadline (keepAreas r s)
        | _ => s

/-- DEADLINE_EXPIRY. -/
def execDeadlineExpiry (req : Nat) (s : State) : Host.Outcome State Fault Refusal := ok (whenReady (deadlineExpiry req) s)

/-! ## MERGE -/

/-- Accepts a MERGE: merge pods are taken, the deadline starts, and FINAL binds the profile's version in force (R149, R151, R100). -/
def acceptMerge (src : Src) (blk : Bytes) (part region : Nat) (pods : List Nat) (s : State) : State :=
  let m := MergeBlk.ofBlock blk
  let r : Req := { Req.initial .merge m.id src (s.masterOf src) (some part) (s.chargeSlot m.comp) blk with
    deadline := s.deadlineOf m.deadline, contribs := contributionsOf blk, mergeRegion := region, mergePods := pods
    profile := if m.final then m.profile else 0
    version := if m.final then (match s.resident m.profile with | some (_, x) => x.ver | none => 0) else 0 }
  let (i, s1) := addReq r s
  takeMerge i region pods (mergeShares m.qtok 128 256) s1

/-- MERGE: the checks of Table 6-3 in order. -/
def runMerge (src : Src) (blk : Bytes) (s : State) : State :=
  let m := MergeBlk.ofBlock blk
  let refuse (st : Status) (t : State) : State :=
    deliver src 2 m.id st.code 0 (t.chargeSlot m.comp) (mergeRefusal blk st noneDecided noneDecided)
      (recordDone m.id (t.masterOf src) st.code t)
  if !mergeCheck1 2 blk then refuse .invalidMode s
  else match s.srcPart src with
  | none => refuse .denied s
  | some part =>
    if !s.partActive part then refuse .denied s
    else match s.compCheck m.comp m.epoch none false with
      | .stale => refuse .staleEpoch (countComp .staleEpoch s)
      | .pass _ =>
        if s.role ≠ 1 ∧ s.role ≠ 3 then refuse .invalidMode s
        else if m.final ∧ ((s.resident m.profile).isNone ∨ s.prof.deleting.contains m.profile) then refuse .invalidMode s
        else if s.duplicate (s.masterOf src) m.id ∨ !s.entryFree (some part) then refuse .busy s
        else match s.mergeFor part (mergeShares m.qtok 128 256) with
          | none => refuse .busy s
          | some (region, pods) => acceptMerge src blk part region pods s
      | _ => refuse .invalidMode s

/-- MERGE. -/
def execMerge (src : Src) (blk : Bytes) (s : State) : Host.Outcome State Fault Refusal :=
  ok (serving opMerge src blk (runMerge src blk) s)

/-- A contribution block as the merger issues it (R148). -/
def rewriteBlock (m : MergeBlk) (c : Contribution) (deadline : Nat) (b : Bytes) : Bytes :=
  let fmt := if m.wire16 then 1 else 0
  if c.isMerge then
    let w := withBits (withBits (withBits (leAt b 8 4) 7 1 0) 10 1 0) 8 1 fmt
    overwrite (overwrite b 8 (toLE 4 w)) 12 (toLE 4 deadline)
  else
    let w := withBits (withBits (leAt b 16 4) 14 1 0) 15 1 fmt
    overwrite (overwrite b 16 (toLE 4 w)) 36 (toLE 4 deadline)

/-- The OPEN connection of a partition to a node, the lowest index (log entry 33). -/
def State.partConn (s : State) (part node : Nat) : Option Nat :=
  (List.find? (fun kv => !kv.2.keeper && kv.2.state == .opened && kv.2.node == node && kv.2.part == part) s.pft.conns).map (·.1)

/-- Marks a contribution outstanding. -/
def issued (i k link rkey : Nat) (s : State) : State :=
  s.updReq i fun r => { r with contribs := r.contribs.modify k fun c => { c with state := 1, link, rkey } }

/-- Sends a contribution to another node with a receive region for its result (R150, R252). -/
def issueRemote (i k : Nat) (r : Req) (c : Contribution) (blk : Bytes) (s : State) : State :=
  let part := r.part.getD 0
  match s.partConn part c.node with
  | none => loseContribution i k s
  | some conn =>
    match register 2 0 receiveBytes part conn 0 s with
    | none => loseContribution i k s
    | some (idx, s1) =>
      meter r.slot 4 blk.length
        (sendMessage conn (keeperMsg 1 false true 2 blk (s1.rkey idx) 0) (issued i k conn idx s1))

/-- CONTRIBUTION_ISSUE (R148, R150): to this node through the request decoder, to another over PFT. -/
def contributionIssue (i k : Nat) (s : State) : State :=
  match s.live i with
  | none => s
  | some r =>
    match r.contribs[k]? with
    | none => s
    | some c =>
      if r.kind ≠ .merge ∨ c.state ≠ 0 then s
      else
        let m := MergeBlk.ofBlock r.blk
        let left := match r.deadline with | some d => s.remaining d | none => 0
        if left < m.margin + 1 then loseContribution i k s
        else
          let blk := rewriteBlock m c (left - m.margin) (c.block r.blk)
          if c.node = s.nodeId then
            let t := issued i k 0 0 s
            if c.isMerge then runMerge (.own i k) blk t else runQuery (.own i k) blk t
          else issueRemote i k r c blk s

/-- CONTRIBUTION_ISSUE. -/
def execContributionIssue (req idx : Nat) (s : State) : Host.Outcome State Fault Refusal :=
  ok (whenReady (contributionIssue req idx) s)

/-! ## Late nodes (R153, R352) -/

/-- Participations of a node and the times its result came last, over the window. -/
def lateShare (bs : List (Nat × List Nat)) (node : Nat) : Nat × Nat :=
  ((bs.filter fun b => b.2.contains node).length, (bs.filter fun b => b.1 == node).length)

/-- Records a barrier and marks or clears SUSPECT nodes (R352). -/
def recordBarrier (last : Nat) (nodes : List Nat) (s : State) : State :=
  if nodes.length < 2 then s
  else
    let cfg := s.reg pgRes 0x054
    let pct := bitsOf cfg 0 7
    let bs := ((last, nodes) :: s.res.barriers).take (bitsOf cfg 8 13)
    let above (n : Nat) : Bool := let x := lateShare bs n; decide (64 ≤ x.1 ∧ pct * x.1 < 100 * x.2)
    let under (n : Nat) : Bool := let x := lateShare bs n; decide (100 * x.2 < (pct - 5) * x.1 ∨ x.1 = 0)
    let fresh := (nodes.eraseDups).filter fun n => above n && !s.res.suspects.contains n
    let s1 : State := { s with res := { s.res with barriers := bs, suspects := (s.res.suspects.filter fun n => !under n) ++ fresh } }
    fresh.foldl (fun t n => setCause pgRes 5 (raise (event 0 8 0x0800 pgRes n) t)) s1

/-! ## CONTRIBUTION_RESULT -/

/-- Merges a result's entries into a MERGE's state (R144, R152). -/
def mergeIn (b : Bytes) (wire16 : Bool) (h : ResultHeader) (acc : Map Triple) : Map Triple :=
  let eb := entryBytes h.dv wire16
  (List.range h.qtok).foldl (fun m t => (List.range h.heads).foldl (fun m2 hd =>
    let x := entryAt b (32 + (t * h.heads + hd) * eb) h.dv wire16
    let key := t * 128 + hd
    Map.insert m2 key (match Map.find? m2 key with | some y => mergeTriple y x | none => x)) m) acc

/-- The remote nodes that contributed to a MERGE. -/
def State.remoteNodes (s : State) (r : Req) : List Nat :=
  ((r.contribs.map (·.node)).filter (· != s.nodeId)).eraseDups

/-- A MERGE whose last contribution has been merged commits OK (R153, R159). -/
def finishMerge (i last : Nat) (s : State) : State :=
  match Map.find? s.reqs i with
  | none => s
  | some r =>
    if r.contribs.all fun c => c.state == 2 then
      let s1 := recordBarrier last (s.remoteNodes r) (s.updReq i fun x => { x with lastNode := last })
      commitReq i .ok (s1.mergeResult r) s1
    else s

/-- CONTRIBUTION_RESULT (R152, R155): a wholly placed result is checked and merged, once. -/
def contributionResult (i k : Nat) (s : State) : State :=
  match s.live i with
  | none => s
  | some r =>
    match r.contribs[k]? with
    | none => s
    | some c =>
      match c.got with
      | none => s
      | some b =>
        if r.kind ≠ .merge ∨ c.state ≠ 1 then s
        else
          let m := MergeBlk.ofBlock r.blk
          let h := ResultHeader.ofBlock b
          let first := r.contribs.all fun c => c.state != 2
          let s0 := if c.rkey = 0 then s else deregister c.rkey s
          let setC (v : Nat) (t : State) : State :=
            t.updReq i fun x => { x with contribs := x.contribs.modify k fun y => { y with state := v } }
          if h.status ≠ 0 then endMerge i (Status.ofCode h.status) k h.aux0 (setC 3 s0)
          else if !first ∧ (h.qtok ≠ r.tokens ∨ h.heads ≠ r.heads ∨ h.dv ≠ r.dv) then endMerge i .invalidMode k h.aux0 (setC 3 s0)
          else
            let cap (v : Nat) : Nat := min v 0xFFFFFFFF
            let s1 := if first then trimMerge i r h.qtok h.heads h.dv s0 else s0
            let s2 := (setC 2 s1).updReq i fun x =>
              { x with heads := h.heads, dv := h.dv, tokens := h.qtok, combined := mergeIn b m.wire16 h x.combined,
                       flags := x.flags ||| h.flags, pagesAttended := cap (x.pagesAttended + h.attended),
                       pagesOmitted := cap (x.pagesOmitted + h.omitted), aux0 := cap (x.aux0 + h.aux0),
                       aux1 := maxBound [x.aux1, BitVec.ofNat 32 h.aux1] }
            finishMerge i c.node s2

/-- CONTRIBUTION_RESULT. -/
def execContributionResult (req idx : Nat) (s : State) : Host.Outcome State Fault Refusal :=
  ok (whenReady (contributionResult req idx) s)

end Sys2Proof.Machine
end

