-- ==== Sys2Proof/Machine/Directory.lean ====
section
/-! DEFINITION. The prefix directory (R166 to R177): LOOKUP in both forms with ATTACH, INSERT of entries and classes, and the removal
of entries; and the completion of the seal sequence, for which an INSERT may wait (R175). -/
namespace Sys2Proof.Machine

/-! ## Keys -/

/-- CHASH (R168). -/
def chashOf (tenant profile : Nat) (phash : Bytes) : Nat :=
  leAt (Sha256.hash (toLE 2 tenant ++ toLE 2 profile ++ phash)) 0 8 % 2 ^ 52

/-- BANK (R168). -/
def bankOf (chash tenant profile : Nat) : Nat :=
  (chash / 2 ^ 40) ^^^ tenant ^^^ (profile % 4096) ^^^ (profile / 4096 * 256)

/-- A signature (Table 7-1). -/
def signature (layer kind chash : Nat) : Nat := layer * 2 ^ 56 + kind * 2 ^ 52 + chash

/-- The signature of a directory entry. -/
def DirEnt.sig (e : DirEnt) : Nat := signature e.layer e.kind e.chash

/-- The signature that a key record gives. -/
def KeyRec.sig (k : KeyRec) : Nat := signature k.layer k.kind (chashOf k.tenant k.profile k.phash)

/-! ## Faults of the directory -/

/-- Replaces a bank group by the spare, or retires it where the spare is used (Tables 14-1 and 14-2): its entries go. -/
def retireGroup (g : Nat) (s : State) : State :=
  let mine := (Map.keys s.mex.dir).filter fun i => i / 65536 == g
  let s1 := mine.foldl (fun t i => dropEntry i t) s
  match s1.mex.spared with
  | none =>
    setCause pgRes 2 (setCause pgMex 3 (raise (event 1 3 0x0302 pgMex g)
      { s1 with mex := { s1.mex with spared := some g, parity := Map.erase s1.mex.parity g } }))
  | some _ => setCause pgRes 3 { s1 with mex := { s1.mex with retired := s1.mex.retired ++ [g], parity := Map.erase s1.mex.parity g } }

/-- Removes a corrupt entry (R172): its share on the key record's page goes, it is counted, and a record whose CODE is not given is
raised. -/
def dropCorrupt (idx : Nat) (s : State) : State :=
  let s1 := match Map.find? s.mex.keys idx with | some k => dropEntryOf idx k.ptr s | none => dropEntry idx s
  setCause pgMex 1 ((raise (event 1 3 (Config.corruptCode % 65536) pgMex idx) s1).bump pgMex 0x048)

/-- The region whose HBM holds the key store of a bank (R167). -/
def keyRegion (bank : Nat) : Nat := bank / 256

/-- Key records that can no longer be read: a failed key check, so that their entries are corrupt (R172; log entry 139). -/
def loseKeys (idxs : List Nat) (s : State) : State := idxs.foldl (fun t i => dropCorrupt i t) s

/-- The key records whose tweak names a page (Table 13-2, SPACE 4). -/
def State.keysOf (s : State) (part h : Nat) : List Nat :=
  Map.keys (Map.filterKV s.mex.keys fun i k => k.ptr == h % 2 ^ 40 && s.dirNames part k.ptr h
    && (match Map.find? s.mex.dir i with | some e => e.part == part | none => false))

/-- Counts a parity error of a bank group (Table 14-1): the sixteenth within an hour retires it. -/
def countParity (idx : Nat) (s : State) : State :=
  let g := idx / 65536
  let hour := 3600000000000
  let ts := (s.time :: Map.getD s.mex.parity g []).filter fun t => decide (s.time < t + hour)
  let s1 : State := { s with mex := { s.mex with parity := Map.insert s.mex.parity g ts } }
  if 16 ≤ ts.length then retireGroup g s1 else s1

/-- An armed parity injection strikes the first entry compared in its bank (R411): it never counts toward sparing. -/
def strikeParity (banks : List Nat) (s : State) : State :=
  match Map.find? s.res.armed pgMex with
  | some (6, bank) =>
    match (Map.keys s.mex.dir).find? fun i => i / 1024 == bank && banks.contains bank with
    | some i =>
      setCause pgGlb 3 ((dropCorrupt i { s with res := { s.res with armed := Map.erase s.res.armed pgMex } }).bump pgGlb 0x098)
    | none => s
  | _ => s

/-- The compare pass meets entries with a parity error: each is treated as corrupt (R172). -/
def dropParity (banks : List Nat) (s : State) : State :=
  let bad := Map.keys (Map.filterKV s.mex.dir fun i e => e.bad && banks.contains (i / 1024))
  bad.foldl (fun t i => countParity i (dropCorrupt i t)) s

/-! ## The search -/

/-- A directory search (R170). -/
structure Search where
  part : Nat
  tenant : Nat
  profile : Nat
  layer : Nat
  kind : Nat
  phash : Bytes
  sigmask : Nat
  maxhits : Nat
deriving DecidableEq, Repr

/-- What the key check says of a hit (R170, R172). -/
inductive KeyCheck where
  | good | corrupt | falseHit
deriving DecidableEq, Repr

/-- The key check of one signature hit. -/
def Search.check (q : Search) (e : DirEnt) (k : KeyRec) : KeyCheck :=
  let lm := bitsOf q.sigmask 56 8
  let km := bitsOf q.sigmask 52 4
  if k.ptr ≠ e.ptr ∨ k.sig ≠ e.sig then .corrupt
  else if k.tenant = q.tenant ∧ k.profile = q.profile ∧ (k.layer ^^^ q.layer) &&& lm = 0 ∧ (k.kind ^^^ q.kind) &&& km = 0
      ∧ (q.sigmask % 2 ^ 52 = 2 ^ 52 - 1 → k.phash = q.phash) then .good
  else .falseHit

/-- A search's outcome so far: verified hits by index, more beyond MAXHITS, false hits. -/
structure Found where
  hits : List (Nat × KeyRec)
  more : Bool
  falseHits : Nat
deriving DecidableEq, Repr

/-- The banks a search compares (R171): one when the bank-select bits are compared, else all. -/
def Search.banks (q : Search) : List Nat :=
  if bitsOf q.sigmask 40 12 = 4095 then [bankOf (chashOf q.tenant q.profile q.phash) q.tenant q.profile] else List.range 4096

/-- Runs a search (R170, R172), counted in MEX_SEARCH. -/
def search (q : Search) (s : State) : Found × State :=
  let banks := q.banks
  let s0 := dropParity banks (strikeParity banks (countUp pgMex 0x050 1 s))
  let want := signature q.layer q.kind (chashOf q.tenant q.profile q.phash)
  let cands := Map.keys (Map.filterKV s0.mex.dir fun i e =>
    banks.contains (i / 1024) && e.part == q.part && (e.sig ^^^ want) &&& q.sigmask == 0)
  let step (acc : Found × State) (i : Nat) : Found × State :=
    match Map.find? acc.2.mex.dir i, Map.find? acc.2.mex.keys i with
    | some e, some k =>
      if e.part ≠ q.part then acc
      else match q.check e k with
      | .good =>
        if acc.1.hits.length < q.maxhits then ({ acc.1 with hits := acc.1.hits ++ [(i, k)] }, acc.2)
        else ({ acc.1 with more := true }, acc.2)
      | .corrupt => (acc.1, dropCorrupt i acc.2)
      | .falseHit => ({ acc.1 with falseHits := acc.1.falseHits + 1 }, acc.2.bump pgMex 0x044)
    | _, _ => acc
  cands.foldl step (⟨[], false, 0⟩, s0)

/-! ## LOOKUP -/

/-- The fields of a LOOKUP block (Table 7-3). -/
structure LookupBlk where
  id : Nat
  conv : Nat
  form : Nat
  attach : Bool
  layer : Nat
  kind : Nat
  part : Nat
  profile : Nat
  maxhits : Nat
  first : Nat
  count : Nat
  sigmask : Nat
  epoch : Nat
  comp : Nat
deriving DecidableEq, Repr

/-- Reads a LOOKUP block. -/
def LookupBlk.ofBlock (b : Bytes) : LookupBlk :=
  { id := blkId b, conv := leAt b 8 8, form := bitsOf (byteAt b 16) 0 2, attach := bitOf (byteAt b 16) 2, layer := byteAt b 17,
    kind := bitsOf (byteAt b 18) 0 4, part := byteAt b 19, profile := leAt b 20 2, maxhits := leAt b 22 2, first := leAt b 24 2,
    count := bitsOf (leAt b 28 2) 0 13, sigmask := leAt b 32 8, epoch := leAt b 40 4, comp := leAt b 44 4 }

/-- R169, and the handle's form in Table 7-3. A KIND that Table 7-1 reserves is refused so too (DESIGN CHOICE, log entry 142: no status is
stated for it in a LOOKUP). -/
def LookupBlk.check1 (b : Bytes) : Bool :=
  let l := LookupBlk.ofBlock b
  zbits b 16 1 3 5 && zbits b 18 1 4 4 && zerosAt b 26 2 && zbits b 28 2 13 3 && zerosAt b 30 2 && zerosAt b 48 16
  && (if l.form = 0 then
        decide (b.length = 64 ∧ l.attach = false ∧ l.kind = 0 ∧ l.part = 0 ∧ l.profile = 0 ∧ l.maxhits = 0 ∧ l.sigmask = 0
          ∧ 1 ≤ l.count ∧ l.count ≤ 4096 ∧ l.first + l.count ≤ 65536)
      else
        decide (l.form = 1 ∧ b.length = 96 ∧ l.first = 0 ∧ l.count = 0 ∧ 1 ≤ l.maxhits ∧ l.maxhits ≤ 1024
          ∧ (l.kind = 0 ∨ 8 ≤ l.kind) ∧ (l.attach = false → l.conv = 0)))

/-- A LOOKUP result's 32-byte header (R173). -/
def lookupHeader (id status : Nat) (more created : Bool) (hits falseHits conv : Nat) : Bytes :=
  toLE 8 id ++ BitVec.ofNat 8 status :: BitVec.ofNat 8 ((if more then 1 else 0) + (if created then 2 else 0))
    :: toLE 2 hits ++ toLE 2 (min falseHits 65535) ++ zeros 2 ++ toLE 8 conv ++ zeros 8

/-- A hit record (Table 7-4). -/
def hitRecord (h : Nat) (p : Page) (k : KeyRec) (attached : Bool) (astat : Nat) : Bytes :=
  toLE 8 h ++ toLE 8 (k.layer + k.kind * 2 ^ 8 + p.state.code * 2 ^ 12 + p.tier * 2 ^ 15 + (if attached then 2 ^ 17 else 0)
    + astat * 2 ^ 18 + p.shares * 2 ^ 22)

/-- Answers a LOOKUP that is refused. -/
def refuseLookup (src : Src) (l : LookupBlk) (st : Status) (s : State) : State :=
  deliver src 1 l.id st.code 0 (s.chargeSlot l.comp) (lookupHeader l.id st.code false false 0 0 0)
    (recordDone l.id (s.masterOf src) st.code s)

/-- Completes a LOOKUP. -/
def completeLookup (src : Src) (l : LookupBlk) (res : Bytes) (s : State) : State :=
  deliver src 1 l.id 0 0 (s.chargeSlot l.comp) res (recordDone l.id (s.masterOf src) 0 s)

/-- LOOKUP FORM 0 (R44, R169): the descriptors of a range of a stream's page list. -/
def lookupDescriptors (src : Src) (blk : Bytes) (s : State) : State :=
  let l := LookupBlk.ofBlock blk
  match s.authorise src (hTenant l.conv) 1 with
  | none => finishDenied src l.id (s.tenantTarget (hTenant l.conv)) s
  | some part =>
    if !s.keyed part then refuseLookup src l .denied s
    else withComp opLookup src l.id l.comp l.epoch (some l.conv) (s.heldConv l.conv).isSome (some part) none blk (fun t =>
      match t.heldConv l.conv with
      | none => refuseLookup src l .absent t
      | some c =>
      if t.outside c l.layer then refuseLookup src l .invalidMode t
      else if !t.entryFree (some part) ∨ t.duplicate (t.masterOf src) l.id then refuseLookup src l .busy t
      else if t.frozen l.conv then holdFrozen opLookup src l.id (some part) (t.chargeSlot l.comp) none l.conv blk t
      else
        let one (e : Nat) : Bytes := match t.pageAt l.conv l.layer e with | some (h, p) => t.descriptor h p | none => zeros 16
        completeLookup src l (lookupHeader l.id 0 false false l.count 0 l.conv ++ (List.range l.count).flatMap fun k => one (l.first + k))
          t) s

/-- The stream to which a hit would be attached, made by its STREAM event where it holds no page (R53). -/
def attachStream (part conv profile cls layer : Nat) (g : Geo) (img : Bytes) (s : State) : Stream × State :=
  match s.stream? conv layer with
  | some st => (st, s)
  | none => newStream part profile cls layer g img s

/-- ASTAT of a hit (Table 7-4), 0 where it can be attached (R174). Past page-list entry 65,535 (R42) no entry is unallocated (log entry
140). -/
def astatOf (p : Page) (g : Geo) (layer : Nat) (st : Stream) : Nat :=
  if p.state ≠ .sealed then 2
  else if 0xFFFFFF ≤ p.shares then 3
  else if st.next % 256 ≠ 0 ∨ 65536 ≤ st.next / 256 ∨ Map.has st.entries (st.next / 256) then 4
  else if g.layers ≤ layer then 5
  else if p.fmt ≠ st.fmt ∨ p.evar ≠ st.evar then 6
  else 0

/-- Attaches a page to a stream at its next page-list entry (R174, R53, R54). -/
def attachPage (conv layer h : Nat) (p : Page) (st : Stream) (s : State) : State :=
  let e := st.next / 256
  let st' : Stream := { st with entries := Map.insert st.entries e h, next := (e + 1) * 256, home := some (st.home.getD p.lastRegion) }
  let s1 := ((writeMeta p.part 0 (streamKey conv layer) s).putStream conv layer st').updPage h fun q =>
    { q with shares := q.shares + 1, retained := q.retained || st.retained }
  if st.retained ∧ st.mstate = 2 then sendEntry conv layer e 0 true s1 else s1

/-- One verified hit of a LOOKUP: its record, after ATTACH where asked. A page that has gone is left out. -/
def takeHit (attach : Option (Nat × Nat × Nat)) (part : Nat) (acc : Bytes × Nat × State) (hit : Nat × KeyRec) : Bytes × Nat × State :=
  let s := acc.2.2
  let k := hit.2
  match s.pageBySerial part k.ptr with
  | none => acc
  | some (h, p) =>
    match attach with
    | none => (acc.1 ++ hitRecord h p k false 1, acc.2.1 + 1, s)
    | some (conv, profile, cls) =>
      let img := match s.resident profile with | some (_, x) => x.img | none => []
      let g := Geo.ofImage img
      let made := attachStream part conv profile cls k.layer g img s
      let a := astatOf p g k.layer made.1
      let s1 := if a = 0 then attachPage conv k.layer h p made.1 made.2 else s
      let p1 := (Map.find? s1.pages h).getD p
      (acc.1 ++ hitRecord h p1 k (decide (a = 0)) a, acc.2.1 + 1, s1)

/-- The records that the mirror must have sent before a LOOKUP completes (R54): for each stream that has attached a page at a RESYNCED
mirror, its key and the slot position its Buoy must reach. -/
def State.unsent (before after : State) (conv : Nat) : List Nat :=
  (after.streams.filter fun kv => kv.1 / 256 == conv && kv.2.retained && kv.2.mstate == 2
    && (match Map.find? before.streams kv.1 with | some x => decide (x.next < kv.2.next) | none => true)).map fun kv => mirrorGoal kv.1 kv.2.next

/-- Runs the search of a LOOKUP that has passed its checks, and completes it once the mirror has sent what it attached (R54). -/
def doSearch (src : Src) (blk : Bytes) (part : Nat) (attach : Option (Nat × Nat × Nat)) (created : Bool) (s : State) : State :=
  let l := LookupBlk.ofBlock blk
  let q : Search := { part, tenant := s.tenantOf part, profile := l.profile, layer := l.layer, kind := l.kind,
                      phash := slice blk 64 21, sigmask := l.sigmask, maxhits := l.maxhits }
  let (f, s1) := search q s
  let (recs, n, s2) := f.hits.foldl (takeHit attach part) ([], 0, s1)
  let conv := match attach with | some (c, _, _) => c | none => 0
  let res := lookupHeader l.id 0 f.more created n f.falseHits conv ++ recs
  let goals := s1.unsent s2 conv
  if attach.isNone ∨ goals = [] then completeLookup src l res s2
  else (addReq { Req.initial .lookup l.id src (s2.masterOf src) (some part) (s2.chargeSlot l.comp) blk with
    conv, waits := goals, res } s2).2

/-- The partition a FORM 1 search without a handle names: the master's own, or for a master without one PART (Table 7-3). -/
def State.searchPart (s : State) (src : Src) (l : LookupBlk) : Option Nat :=
  match s.srcPart src with
  | some p => if l.part = 0 then some p else none
  | none => some l.part

/-- PART of a LOOKUP with ATTACH (Table 7-3): zero from a master that has a partition; a master without one names the partition searched,
which is the conversation's, since pages are shared within one tenant alone (R55). -/
def State.attachPart (s : State) (src : Src) (l : LookupBlk) (part : Nat) : Bool :=
  match s.srcPart src with
  | some _ => l.part == 0
  | none => l.part == part

/-- A sweep of all banks needs ADMIN on the MEX page (R171). -/
def State.sweepOk (s : State) (src : Src) (l : LookupBlk) : Bool :=
  bitsOf l.sigmask 40 12 == 4095 || decide (3 ≤ s.right (s.masterOf src) pgMex)

/-- LOOKUP FORM 1 without ATTACH (R170). -/
def lookupSearch (src : Src) (blk : Bytes) (s : State) : State :=
  let l := LookupBlk.ofBlock blk
  match s.searchPart src l with
  | none => refuseLookup src l .invalidMode s
  | some part =>
    if s.right (s.masterOf src) (partTarget part) < 1 then finishDenied src l.id (partTarget part) s
    else if !s.sweepOk src l then finishDenied src l.id pgMex s
    else if !s.partActive part then refuseLookup src l .absent s
    else if !s.keyed part then refuseLookup src l .denied s
    else withComp opLookup src l.id l.comp l.epoch none false (some part) none blk (fun t =>
      if !t.entryFree (some part) ∨ t.duplicate (t.masterOf src) l.id then refuseLookup src l .busy t
      else doSearch src blk part none false t) s

/-- LOOKUP FORM 1 with ATTACH (R174): the conversation is found, or created (R38, R356). -/
def lookupAttach (src : Src) (blk : Bytes) (s : State) : State :=
  let l := LookupBlk.ofBlock blk
  match s.authorise src (hTenant l.conv) 2 with
  | none => finishDenied src l.id (s.tenantTarget (hTenant l.conv)) s
  | some part =>
    if !s.attachPart src l part then refuseLookup src l .invalidMode s
    else if !s.keyed part then refuseLookup src l .denied s
    else
      let creating := isCreate l.conv
      let object := if creating then none else some l.conv
      withComp opLookup src l.id l.comp l.epoch object (s.heldConv l.conv).isSome (some part) none blk (fun t =>
        if l.sigmask % 2 ^ 56 ≠ 2 ^ 56 - 1 then refuseLookup src l .invalidMode t
        else if !t.entryFree (some part) ∨ t.duplicate (t.masterOf src) l.id then refuseLookup src l .busy t
        else if creating then
          if (t.role ≠ 0 ∧ t.role ≠ 3) ∨ (t.resident l.profile).isNone ∨ t.prof.deleting.contains l.profile then
            refuseLookup src l .invalidMode t
          else match t.freeSlot part with
            | none => refuseLookup src l .full t
            | some (slot, gen) =>
              let (h, t1) := makeConv part slot gen l.profile (t.chargeSlot l.comp) t
              doSearch src blk part (some (h, l.profile, 0)) true t1
        else match t.heldConv l.conv with
          | none => refuseLookup src l .absent t
          | some c =>
            if c.readOnly ∨ c.profile ≠ l.profile then refuseLookup src l .invalidMode t
            else if t.frozen l.conv then holdFrozen opLookup src l.id (some part) (t.chargeSlot l.comp) none l.conv blk t
            else doSearch src blk part (some (l.conv, c.profile, c.cls)) false t) s

/-- The decoder's LOOKUP. -/
def runLookup (src : Src) (blk : Bytes) (s : State) : State :=
  let l := LookupBlk.ofBlock blk
  if !LookupBlk.check1 blk then refuseLookup src l .invalidMode s
  else if l.form = 0 then lookupDescriptors src blk s
  else if l.attach then lookupAttach src blk s
  else lookupSearch src blk s

/-- LOOKUP_DESCRIPTORS. -/
def execLookupDescriptors (src : Src) (blk : Bytes) (s : State) : Host.Outcome State Fault Refusal :=
  ok (serving opLookup src blk (runLookup src blk) s)

/-- LOOKUP_SEARCH. -/
def execLookupSearch (src : Src) (blk : Bytes) (s : State) : Host.Outcome State Fault Refusal :=
  ok (serving opLookup src blk (runLookup src blk) s)

/-- LOOKUP_ATTACH. -/
def execLookupAttach (src : Src) (blk : Bytes) (s : State) : Host.Outcome State Fault Refusal :=
  ok (serving opLookup src blk (runLookup src blk) s)

/-! ## INSERT of directory entries (R175) -/

/-- The fields of an INSERT or DELETE header (R183). -/
structure ObjBlk where
  id : Nat
  handle : Nat
  obj : Nat
  layer : Nat
  kind : Nat
  pos : Nat
  replace : Bool
  epoch : Nat
  comp : Nat
deriving DecidableEq, Repr

/-- Reads an INSERT or DELETE header. -/
def ObjBlk.ofBlock (b : Bytes) : ObjBlk :=
  { id := blkId b, handle := leAt b 8 8, obj := bitsOf (byteAt b 16) 0 4, layer := byteAt b 17, kind := bitsOf (byteAt b 18) 0 4,
    pos := leAt b 20 4, replace := bitOf (byteAt b 24) 0, epoch := leAt b 40 4, comp := leAt b 44 4 }

/-- Reserved fields of an INSERT or DELETE header, and the payload's length (R183, Table 7-5). -/
def objCheck (insert : Bool) (b : Bytes) : Bool :=
  let o := ObjBlk.ofBlock b
  let keyed := decide (o.obj = 0 ∨ o.obj = 3)
  let n := if insert then (if o.obj = 0 then 32 else if o.obj = 2 then 1 else 36) else if o.obj = 3 then 32 else 0
  b.length == 64 + n && zbits b 16 1 4 4 && zbits b 18 1 4 4 && zerosAt b 19 1 && zbits b 24 1 1 7 && zerosAt b 25 15
    && zerosAt b 48 16
    && (keyed || (o.layer == 0 && o.kind == 0)) && (!keyed || o.kind == 0 || decide (8 ≤ o.kind))
    && ((insert && o.obj == 0) || o.obj == 4 || o.pos == 0) && (!o.replace || (insert && o.obj == 4))
    && (o.obj != 4 || o.handle == 0) && (o.obj != 5 || decide (o.handle < 65536))
    && (o.obj != 3 || bitsOf o.handle 16 36 == 0)
    && (if insert then o.obj == 0 || o.obj == 2 || o.obj == 4
        else o.obj == 1 || o.obj == 2 || o.obj == 3 || o.obj == 4 || o.obj == 5)

/-- A directory entry holding a key, in its partition: its index and key record. -/
def State.keyEntry (s : State) (part : Nat) (k : KeyRec) : Option (Nat × KeyRec) :=
  List.find? (fun kv => kv.2.tenant == k.tenant && kv.2.profile == k.profile && kv.2.layer == k.layer && kv.2.kind == k.kind
    && kv.2.phash == k.phash && (match Map.find? s.mex.dir kv.1 with | some e => e.part == part | none => false)) s.mex.keys

/-- The lowest free place of a bank; none where it is full, its group is retired, or the region of its key store is. -/
def State.bankSlot (s : State) (bank : Nat) : Option Nat :=
  if s.mex.retired.contains (bank / 64) ∨ (s.region (keyRegion bank)).retired then none
  else ((List.range 1024).map fun k => bank * 1024 + k).find? fun i => !Map.has s.mex.dir i

/-- Enters a page in the directory under a key (R175): the status, and the page the result names, which is one already entered. An existing
key is looked for before the bank and the shares are tested (DESIGN CHOICE, log entry 141: the rule lists the checks without an order). -/
def enterPage (part h : Nat) (k : KeyRec) (s : State) : Status × Nat × State :=
  match s.keyEntry part k with
  | some (_, x) => (.ok, (match s.pageBySerial part x.ptr with | some (g, _) => g | none => h), s)
  | none =>
    let chash := chashOf k.tenant k.profile k.phash
    match s.bankSlot (bankOf chash k.tenant k.profile), Map.find? s.pages h with
    | none, _ => (.full, 0, setCause pgMex 2 (s.bump pgMex 0x04C))
    | some i, some p =>
      if 0xFFFFFF ≤ p.shares then (.full, 0, s)
      else
        let e : DirEnt := { layer := k.layer, kind := k.kind, chash, ptr := k.ptr, part, bad := false }
        let m : Mex := { s.mex with dir := Map.insert s.mex.dir i e, keys := Map.insert s.mex.keys i k }
        (.ok, 0, ({ s with mex := m } : State).updPage h fun q => { q with shares := q.shares + 1 })
    | some _, none => (.absent, 0, s)

/-- The key an INSERT or DELETE block names. -/
def blockKey (blk : Bytes) (tenant profile ptr : Nat) : KeyRec :=
  let o := ObjBlk.ofBlock blk
  { tenant, kind := o.kind, profile, layer := o.layer, ptr, phash := slice blk 64 21 }

/-- INSERT with OBJ 0. `wait` is the request entry of one that has waited for the seal. -/
def insertPage (src : Src) (blk : Bytes) (part : Nat) (wait : Option Nat) (s : State) : State :=
  let o := ObjBlk.ofBlock blk
  let answer (st : Status) (h : Nat) (t : State) : State := match wait with
    | some i => commitPlain i st t h
    | none => finish src o.id st t h 0 0 1 (t.chargeSlot o.comp)
  match s.heldConv o.handle with
  | none => answer .absent 0 s
  | some c =>
    if c.readOnly ∨ s.outside c o.layer then answer .invalidMode 0 s
    else match s.pageAt o.handle o.layer o.pos with
      | none => answer .absent 0 s
      | some (h, p) =>
        if p.state = .absent then answer .absent 0 s
        else if p.state = .opened then
          if p.sealing then
            match wait with
            | some _ => s
            | none => (addReq { Req.initial .insert o.id src (s.masterOf src) (some part) (s.chargeSlot o.comp) blk with
                                conv := o.handle, layer := o.layer, waits := [h] } s).2
          else answer .invalidMode 0 s
        else
          let r := enterPage part h (blockKey blk (hTenant o.handle) c.profile (h % 2 ^ 40)) s
          answer r.1 r.2.1 r.2.2

/-- INSERT with OBJ 2: the CLASS of a conversation (R183). -/
def insertClass (src : Src) (blk : Bytes) (s : State) : State :=
  let o := ObjBlk.ofBlock blk
  match s.heldConv o.handle with
  | none => finish src o.id .absent s 0 0 0 1 (s.chargeSlot o.comp)
  | some c =>
    if c.readOnly then finish src o.id .invalidMode s 0 0 0 1 (s.chargeSlot o.comp)
    else finish src o.id .ok { writeMeta c.part 1 o.handle s with
      convs := Map.adjust s.convs o.handle fun x => { x with cls := byteAt blk 64 } } 0 0 0 1
      (s.chargeSlot o.comp)

/-- The checks that every INSERT or DELETE on a tenant's object shares; `conv` names the conversation, if it is one. -/
def onObject (opcode : Nat) (src : Src) (blk : Bytes) (tenant : Nat) (object : Option Nat) (held : Bool)
    (go : Nat → State → State) (s : State) : State :=
  let o := ObjBlk.ofBlock blk
  match s.authorise src tenant 2 with
  | none => finishDenied src o.id (s.tenantTarget tenant) s
  | some part =>
    if !s.keyed part then finish src o.id .denied s
    else withComp opcode src o.id o.comp o.epoch object held (some part) none blk (fun t =>
      if !t.entryFree (some part) ∨ t.duplicate (t.masterOf src) o.id then finish src o.id .busy t 0 0 0 1 (t.chargeSlot o.comp)
      else match object with
        | some h =>
          if held ∧ t.frozen h then holdFrozen opcode src o.id (some part) (t.chargeSlot o.comp) none h blk t else go part t
        | none => go part t) s

/-- Tries again the INSERTs that waited for a page to seal (R175). -/
def wakeInserts (h : Nat) (s : State) : State :=
  let mine := Map.filterKV s.reqs fun _ r => r.kind == .insert && r.status.isNone && r.waits.contains h
  mine.foldl (fun t kv => insertPage kv.2.src kv.2.blk (kv.2.part.getD 0) (some kv.1) t) s

/-- SEAL_SEQUENCE: the sequence, and then the INSERTs that waited for its step 8. -/
def execSealSequence (page : Nat) (tagOk : Bool) (s : State) : Host.Outcome State Fault Refusal :=
  ok (whenReady (fun t => wakeInserts page (sealSequence page tagOk t)) s)

end Sys2Proof.Machine
end

