-- ==== Sys2Proof/Machine/Profile.lean ====
section
/-! DEFINITION. Profiles: the checks of an image (R102 to R107), loading, activation, draining and deletion (R100, R101, R109 to
R115, R447). -/
namespace Sys2Proof.Machine

/-! ## The image -/

/-- Length of a section of an image by the offset of its length field (Table 4-4). -/
def imgProgLen (b : Bytes) : Nat := leAt b 44 4
def imgQtLen (b : Bytes) : Nat := leAt b 52 4
def imgAuxLen (b : Bytes) : Nat := leAt b 60 4
def imgWukLen (b : Bytes) : Nat := leAt b 72 8
def imgWuvLen (b : Bytes) : Nat := leAt b 88 8

/-- A section: offset and length. -/
def imgSections (b : Bytes) : List (Nat × Nat) :=
  [(leAt b 40 4, imgProgLen b), (leAt b 48 4, imgQtLen b), (leAt b 56 4, imgAuxLen b), (imgWuk b, imgWukLen b),
   (imgWuv b, imgWuvLen b)]

/-- Check 1 of Table 4-8. -/
def imgCheck1 (b : Bytes) : Bool :=
  decide (256 ≤ b.length) && leAt b 0 4 == 0x46505850 && leAt b 4 2 == 1 && leAt b 6 2 == 256
  && (imgSections b).all (fun x => decide (x.1 + x.2 ≤ b.length) && (x.2 == 0 || x.1 % 64 == 0))
  && zbits b 31 1 1 7 && zerosAt b 33 7 && zerosAt b 96 160
  && (List.range (imgQtLen b / 16)).all fun i => zerosAt b (leAt b 48 4 + 16 * i + 8) 8

/-- Positive and finite. -/
def posFinite (x : W32) : Bool := finite32 x && F32.less 0 x

/-- Whether `n` bytes at `off` lie in the AUX section, `off` a multiple of 4. -/
def inAux (b : Bytes) (off n : Nat) : Bool := decide (off % 4 = 0 ∧ off + n ≤ imgAuxLen b)

/-- Whether a per-head FP32 table lies in AUX and its entries satisfy a condition. -/
def headTable (b : Bytes) (h off : Nat) (f : W32 → Bool) : Bool :=
  inAux b off (4 * h) && (List.range h).all fun i => f (auxF32 b (off + 4 * i))

/-- An operand a: from A, or with PERHEAD from its table. -/
def operandA (b : Bytes) (h : Nat) (st : Stage) (f : W32 → Bool) : Bool :=
  if st.perhead then headTable b h st.c f else f st.a

/-- The conditions of a stage entry (Table 4-7); `entry` is its offset. -/
def stageOk (b : Bytes) (g : Geo) (entry : Nat) (st : Stage) : Bool :=
  let n := st.p16 % 256 + 1
  let table := bitsOf st.p16 12 4 == 0 && inAux b st.c (2 * n)
  zbits b (entry + 1) 1 1 7 &&
  (if st.op = 0x11 ∨ st.op = 0x12 then operandA b g.h st posFinite
   else if st.op = 0x13 then !st.perhead && posFinite st.a
   else if st.op = 0x14 then table && (!st.perhead || inAux b (st.c + 4 * ceilDiv n 2) (4 * g.h))
   else if st.op = 0x15 then !st.perhead && finite32 st.a && finite32 st.b && F32.less st.a st.b
   else if st.op = 0x16 then !st.perhead && inAux b st.c (4 * g.h)
   else if st.op = 0x17 then !st.perhead && table && (List.range n).all fun i => finite32 (auxF16 b (st.c + 2 * i))
   else if st.op = 0x21 then !st.perhead && posFinite st.a
   else if st.op = 0x22 then !st.perhead && posFinite st.a && !g.dense
   else if st.op = 0x31 then operandA b g.h st finite32
   else if st.op = 0x41 then !st.perhead && inAux b st.c (4 * g.h)
   else false)

/-- The stage program by R107: entries up to END, which has every other field zero. -/
def programOk (b : Bytes) (g : Geo) : Bool :=
  let at_ (i : Nat) : Nat := leAt b 40 4 + 16 * i
  let rec go : Nat → Nat → Bool
    | 0, _ => true
    | fuel + 1, i => if byteAt b (at_ i) = 0 then zerosAt b (at_ i) 16 else stageOk b g (at_ i) (imgStage b i) && go fuel (i + 1)
  decide (g.nstages ≤ 32) && go g.nstages 0

/-- A quantisation-table entry (R105). -/
def qtOk (b : Bytes) (g : Geo) (i : Nat) : Bool :=
  let o := leAt b 48 4 + 16 * i
  let ps := match decodeIeee spec32 (leAt b o 4) with
    | .fin neg v => v.isZero || (!neg && (Dy.pow2 (-24)).le v && v.le (.ofNat 65504))
    | _ => false
  let zero := match decodeIeee spec32 (leAt b o 4) with | .fin _ v => v.isZero | _ => false
  let clip := match decodeIeee spec32 (leAt b (o + 4) 4) with | .fin neg v => v.isZero || !neg | _ => false
  ps && clip && (g.sfmt != 0xE || g.hold || !zero)

/-- Table 4-5, R91 and R104. -/
def limitsOk (b : Bytes) (g : Geo) : Bool :=
  decide (1 ≤ g.layers ∧ g.layers ≤ 256 ∧ byteAt b 12 ≤ 1 ∧ 3 ≤ g.sfmt ∧ g.sfmt ≤ 15 ∧ byteAt b 15 ≤ 1
    ∧ (g.sfmt = 15 → g.hold = true) ∧ (if g.sfmt = 0xA ∨ g.sfmt = 0xB then g.evar ≤ 1 else g.evar = 0)
    ∧ 1 ≤ g.h ∧ g.h ≤ 128 ∧ imgQtLen b = g.layers * 16 ∧ imgAuxLen b ≤ 8192 ∧ imgProgLen b = g.nstages * 16)
  && (if g.dense then
        decide (1 ≤ g.kv ∧ g.kv ≤ 32 ∧ g.h % g.kv = 0 ∧ g.cc = 0 ∧ g.cp = 0 ∧ g.dk = 0 ∧ g.dv = 0 ∧ 32 ≤ g.d ∧ g.d ≤ 256
          ∧ g.d % 32 = 0 ∧ g.pfmt = 0 ∧ imgWukLen b = 0 ∧ imgWuvLen b = 0)
      else
        decide (g.kv = 0 ∧ 64 ≤ g.cc ∧ g.cc ≤ 1024 ∧ g.cc % 64 = 0 ∧ g.cp ≤ 128 ∧ g.cp % 32 = 0 ∧ 16 ≤ g.dk ∧ g.dk ≤ 256
          ∧ g.dk % 16 = 0 ∧ 16 ≤ g.dv ∧ g.dv ≤ 256 ∧ g.dv % 16 = 0 ∧ g.d = 0 ∧ (g.pfmt = 1 ∨ g.pfmt = 3)
          ∧ imgWukLen b = g.layers * g.h * g.dk * projRowBytes g ∧ imgWuvLen b = g.layers * g.h * g.dv * projRowBytes g))

/-- Check 4 of Table 4-8. A quantisation-table entry with values that R105 does not allow fails here, one with reserved bytes that are not
zero fails check 1 (DESIGN CHOICE, log entry 153: R105 names neither check). -/
def imgCheck4 (b : Bytes) : Bool :=
  let g := Geo.ofImage b
  limitsOk b g && programOk b g && (List.range g.layers).all (qtOk b g)

/-- R111, compatibility. -/
def compatible (a b : Geo) : Bool :=
  a.layers == b.layers && a.dense == b.dense && a.sfmt == b.sfmt && a.evar == b.evar && a.hold == b.hold && a.h == b.h
    && a.kv == b.kv && a.cc == b.cc && a.cp == b.cp && a.dk == b.dk && a.dv == b.dv && a.d == b.d && a.pfmt == b.pfmt

/-- The size of a copy in whole MiB (R101). -/
def imgMib (b : Bytes) : Nat :=
  ceilDiv (256 + imgProgLen b + imgQtLen b + imgAuxLen b + imgWukLen b + imgWuvLen b) 1048576

/-- The bytes of a section. -/
def imgSection (b : Bytes) (x : Nat × Nat) : Bytes := slice b x.1 x.2

/-- The three digests (R112): weight, program, quantisation table. -/
def imgDigests (b : Bytes) : Bytes × Bytes × Bytes :=
  let sec (i : Nat) : Bytes := match (imgSections b)[i]? with | some x => imgSection b x | none => []
  (Sha256.hash (sec 3 ++ sec 4), Sha256.hash (slice b 0 256 ++ sec 0 ++ sec 2), Sha256.hash (sec 1))

/-- P0's image (R115). -/
def p0Image : Bytes :=
  toLE 4 0x46505850 ++ toLE 2 1 ++ toLE 2 256 ++ toLE 2 0 ++ toLE 2 256 ++ [1, 3, 0, 0] ++ toLE 2 32 ++ toLE 2 8 ++ zeros 8
    ++ toLE 2 128 ++ [0, 0, 1] ++ zeros 7 ++ toLE 4 256 ++ toLE 4 16 ++ toLE 4 320 ++ toLE 4 4096 ++ zeros 200
    ++ [0x11, 0, 0, 0] ++ toLE 4 0x3DB504F3 ++ zeros 8 ++ zeros 48 ++ zeros 4096

/-- A version that a slot holds, in a state. -/
def profSlotOf (img : Bytes) (ver st : Nat) (manifest : Bool) : ProfSlot :=
  let d := imgDigests img
  { id := leAt img 8 2, ver, st, manifest, mib := imgMib img, wdig := d.1, pdig := d.2.1, qdig := d.2.2, img }

/-! ## PROFILE_LOAD -/

/-- Free MiB of each region's part of the store (R101). -/
def State.profFree (s : State) : Nat := 64 * s.prof.storeGib - s.prof.slots.foldl (fun n kv => n + kv.2.mib) 0

/-- Slots that hold an ID. -/
def State.profSlots (s : State) (id : Nat) : Map ProfSlot := Map.filterKV s.prof.slots fun _ x => x.id == id

/-- PROFILE_LOAD's result (R447). -/
def loadResult (st check id slot ver : Nat) : Bytes :=
  zeros 8 ++ [BitVec.ofNat 8 st, BitVec.ofNat 8 check] ++ zeros 2 ++ toLE 2 id ++ zeros 2 ++ [BitVec.ofNat 8 slot] ++ zeros 3
    ++ toLE 2 ver ++ zeros 10

/-- Shows the outcome of a load in PROF_LAST_LOAD and PG_CAUSE, and completes it; it has no REQ_ID and leaves no record. -/
def endLoad (src : Src) (st : Status) (check id slot ver : Nat) (s : State) : State :=
  let s1 := setCause pgProf (if st = .ok then 0 else 1) (s.setReg pgProf 0x054 (st.code + check * 256 + id * 65536))
  deliver src 1 0 st.code 0 16 (loadResult st.code check id slot ver) s1

/-- A function of the port that is not primary (R296). -/
def State.secondary (s : State) (src : Src) : Bool :=
  match src with
  | .host port _ _ _ _ _ => port != s.primary
  | _ => false

/-- The free profile slot that a load takes: the lowest (DESIGN CHOICE, log entry 131: R111 says a free slot and not which). -/
def State.freeProfSlot (s : State) : Option Nat := (List.range 64).find? fun k => !Map.has s.prof.slots k

/-- The first of checks 1 to 8 that fails, with its status (Table 4-8). -/
def State.loadCheck (s : State) (src : Src) (img : Bytes) : Option (Status × Nat) :=
  let id := leAt img 8 2
  let slots := s.profSlots id
  if !imgCheck1 img then some (.invalidMode, 1)
  else if s.secondary src ∨ s.right (s.masterOf src) pgProf < 3 then some (.denied, 2)
  else if s.prof.loading.isSome then some (.busy, 3)
  else if !imgCheck4 img then some (.invalidMode, 4)
  else if s.prof.deleting.contains id ∨ (slots.any fun kv => kv.2.st == 3) then some (.busy, 5)
  else if (match s.resident id with | some (_, x) => !compatible (Geo.ofImage x.img) (Geo.ofImage img) | none => false) then
    some (.invalidMode, 6)
  else if s.freeProfSlot.isNone then some (.full, 7)
  else if s.profFree < imgMib img then some (.full, 8)
  else none

/-- PROFILE_LOAD (R109): checks 1 to 8, and then the copy begins. -/
def profileLoad (src : Src) (img : Bytes) (readOk : Bool) (s : State) : State :=
  let id := leAt img 8 2
  if !readOk then endLoad src .integrity 0 id 0 0 s
  else match s.loadCheck src img with
    | some (st, n) =>
      let s1 := if n = 2 ∧ !s.secondary src then deny (s.masterOf src) pgProf s else s
      endLoad src st n (if n = 1 then 0 else id) 0 0 s1
    | none =>
      match s.freeProfSlot with
      | none => s
      | some k =>
        let free := s.profFree
        let r : Req := { Req.initial .profile 0 src (s.masterOf src) none 16 [] with entryUsed := false }
        let (i, s1) := addReq r s
        let slot := profSlotOf img 0 1 false
        let s2 : State := { s1 with prof := { s1.prof with slots := Map.insert s1.prof.slots k slot, loading := some (i, k) } }
        let low := s.reg pgProf 0x04C
        if low ≤ free ∧ s2.profFree < low then setCause pgProf 2 s2 else s2

/-- PROFILE_LOAD. -/
def execProfileLoad (src : Src) (img : Bytes) (readOk : Bool) (s : State) : Host.Outcome State Fault Refusal :=
  let st (c : Status) (t : State) : State :=
    deliver src 1 0 c.code 0 16 (loadResult c.code 0 0 0 0) t
  ok (match s.phase with
    | .ready => profileLoad src img readOk s
    | .recovery => st .invalidMode s
    | .waitPwrFail => st .busy s
    | _ => s)

/-- The manifest of an ID (R113, R379). -/
def State.manifestOf (s : State) (id : Nat) : Option Bytes := s.prof.manifests.find? fun m => leAt m 0 2 == id

/-- Check 9 of Table 4-8 (R113). -/
def State.check9 (s : State) (x : ProfSlot) : Bool :=
  match s.manifestOf x.id with
  | some m => slice m 8 32 == x.wdig && slice m 40 32 == x.pdig && slice m 72 32 == x.qdig
  | none => s.field pgProf 0x058 0 1 == 0

/-- What a COMMAND record shows of a profile: ID, version, slot (Table 13-8). -/
def profWord (k : Nat) (x : ProfSlot) : Nat := x.id + x.ver * 2 ^ 16 + k * 2 ^ 32

/-- PROFILE_ACTIVATE: the copies and digests of the load in progress are complete (R110 to R113). -/
def profileActivate (s : State) : State :=
  match s.prof.loading with
  | none => s
  | some (i, k) =>
    match Map.find? s.reqs i, Map.find? s.prof.slots k with
    | some r, some x =>
      let s0 : State := { s with reqs := Map.erase s.reqs i }
      if !s.check9 x then
        let s1 : State := { s0 with prof := { s0.prof with slots := Map.erase s0.prof.slots k, loading := none } }
        endLoad r.src .denied 9 x.id 0 0 s1
      else
        let ver := match Map.find? s.prof.lastVer x.id with | some v => (v + 1) % 65536 | none => 1
        let y : ProfSlot := { x with ver, st := 2, manifest := (s.manifestOf x.id).isSome }
        let old := s.resident x.id
        let drain (z : ProfSlot) : ProfSlot := if z.id = x.id ∧ z.st = 2 then { z with st := 3 } else z
        let slots := Map.insert (Map.mapVals s.prof.slots fun _ z => drain z) k y
        let s1 : State := { s0 with prof := { s0.prof with slots, lastVer := Map.insert s.prof.lastVer x.id ver, loading := none } }
        let before := match old with | some (j, z) => profWord j z | none => 0
        let s2 := bumpMeas (logCommand r.master 0x0E 0 before (profWord k y) s1)
        endLoad r.src .ok 0 x.id k ver s2
    | _, _ => { s with prof := { s.prof with loading := none } }

/-- PROFILE_ACTIVATE. -/
def execProfileActivate (s : State) : Host.Outcome State Fault Refusal := ok (whenReady profileActivate s)

/-- VERSION_DRAINED: the last request bound to a draining version is complete, and its slot and copies are freed (R111); of an ID that is
being deleted, the slots and copies of every version together, when the last request bound to any of them is complete (R114). -/
def versionDrained (k : Nat) (s : State) : State :=
  match Map.find? s.prof.slots k with
  | none => s
  | some x =>
    let whole := s.prof.deleting.contains x.id
    let mine := if whole then s.profSlots x.id else [(k, x)]
    if x.st ≠ 3 ∨ (mine.any fun kv => s.boundTo kv.2.id kv.2.ver != 0) then s
    else
      let p : Profiles := { s.prof with slots := mine.foldl (fun m kv => Map.erase m kv.1) s.prof.slots
                                        deleting := if whole then s.prof.deleting.filter (· != x.id) else s.prof.deleting }
      setCause pgProf 3 (bumpMeas { s with prof := p })

/-- VERSION_DRAINED. -/
def execVersionDrained (slot : Nat) (s : State) : Host.Outcome State Fault Refusal := ok (whenReady (versionDrained slot) s)

/-- DELETE with OBJ 5 (R114): the status, and the store after it. -/
def deleteProfile (id : Nat) (master : Nat) (s : State) : Status × State :=
  let slots := s.profSlots id
  let loading : Bool := match s.prof.loading with
    | some (_, k) => (match Map.find? s.prof.slots k with | some x => x.id == id | none => false)
    | none => false
  if loading then (.busy, s)
  else if s.prof.deleting.contains id then (.ok, s)
  else if slots = [] then (.absent, s)
  else if s.convs.any fun kv => kv.2.profile == id then (.busy, s)
  else
    let before := match s.resident id with | some (j, z) => profWord j z | none => 0
    let drain (z : ProfSlot) : ProfSlot := if z.id = id then { z with st := 3 } else z
    let p : Profiles := { s.prof with slots := Map.mapVals s.prof.slots fun _ z => drain z, deleting := s.prof.deleting ++ [id] }
    (.ok, logCommand master 0x0B 5 before 0 { s with prof := p })

end Sys2Proof.Machine
end

