-- ==== Sys2Proof/Machine/Rules.lean ====
section
/-! DEFINITION. The commands that change the placement rule table (R181, R182), DELETE of every object (R41, R176, R183, R445), and the decoder's
INSERT and DELETE. -/
namespace Sys2Proof.Machine

/-! ## Rule changes -/

/-- RULE_SHIFT_DONE: the shift of the change that runs ends. -/
def ruleShiftDone (s : State) : State := runReplaces 17 (commitRule s)

/-- RULE_SHIFT_DONE. -/
def execRuleShiftDone (s : State) : Host.Outcome State Fault Refusal := ok (whenReady ruleShiftDone s)

/-- A big little-endian field of a rule. -/
def ruleOf (blk : Bytes) : Rule := { value := leAt blk 64 16, care := leAt blk 80 16, action := leAt blk 96 4 }

/-- Checks that INSERT and DELETE with OBJ 4 and 5 share: ADMIN on a page from the primary port (R183, R296), COMP and EPOCH, and a
request entry. -/
def onAdmin (page : Nat) (src : Src) (blk : Bytes) (go : State → State) (s : State) : State :=
  let o := ObjBlk.ofBlock blk
  let stop (st : Status) (t : State) : State := finish src o.id st t 0 0 0 1 (t.chargeSlot o.comp)
  if s.secondary src then stop .denied s
  else if s.right (s.masterOf src) page < 3 then finishDenied src o.id page s
  else match s.compCheck o.comp o.epoch none false with
    | .stale => answerComp .staleEpoch src o.id o.comp none s
    | .pass _ =>
      if !s.entryFree (s.srcPart src) ∨ s.duplicate (s.masterOf src) o.id then stop .busy s else go s
    | _ => stop .invalidMode s

/-- A rule change: INSERT, REPLACE or DELETE with OBJ 4 (R181, R182). `op` as in `RuleChange`. A rule with care bits over reserved key bits
gets INVALID_MODE (DESIGN CHOICE, log entry 155: R178 forbids them and names no status). -/
def changeRule (op : Nat) (src : Src) (blk : Bytes) (s : State) : State :=
  let o := ObjBlk.ofBlock blk
  let rule := if op = 2 then { value := 0, care := 0, action := 0 } else ruleOf blk
  let stop (st : Status) : State := finish src o.id st s 0 0 0 1 (s.chargeSlot o.comp)
  let len := s.mex.lenAfter
  if op ≠ 2 ∧ (!actionOk rule.action ∨ rule.care / 2 ^ 53 ≠ 0) then stop .invalidMode
  else if (op = 0 ∧ len < o.pos) ∨ (op ≠ 0 ∧ len ≤ o.pos) then stop .invalidMode
  else if op = 0 ∧ 16384 ≤ len then stop .full
  else if 16 ≤ s.mex.changes.length then stop .busy
  else
    let r := Req.initial .rule o.id src (s.masterOf src) (s.srcPart src) (s.chargeSlot o.comp) blk
    let (i, s1) := addReq r s
    let first := s1.mex.changes.isEmpty
    let s2 : State := { s1 with mex := { s1.mex with changes := s1.mex.changes ++ [⟨op, o.pos, rule, i⟩] } }
    if first then runReplaces 1 s2 else s2

/-- The decoder's INSERT (R183). -/
def runInsert (src : Src) (blk : Bytes) (s : State) : State :=
  let o := ObjBlk.ofBlock blk
  let tenant := hTenant o.handle
  if !objCheck true blk then finish src o.id .invalidMode s
  else if o.obj = 0 then
    onObject opInsert src blk tenant (some o.handle) (s.heldConv o.handle).isSome (fun p t => insertPage src blk p none t) s
  else if o.obj = 2 then
    onObject opInsert src blk tenant (some o.handle) (s.heldConv o.handle).isSome (fun _ t => insertClass src blk t) s
  else onAdmin pgMex src blk (changeRule (if o.replace then 1 else 0) src blk) s

/-! ## DELETE -/

/-- Deletes a conversation (R41, R136, R351): no request can reach it any more; its seal sequences stop, its pages are released in
the background, and the partner is told. An INSERT that waits for the seal of a page of it can never complete as R41 has accepted requests
do, and ends ABSENT as a SEAL does (DESIGN CHOICE, log entry 134). -/
def dropConversation (conv : Nat) (c : Conv) (s : State) : State :=
  let s1 : State := { writeMeta c.part 1 conv s with convs := Map.adjust s.convs conv fun x => { x with deleting := true } }
  let s2 : State := { s1 with pages := Map.mapVals s1.pages fun _ p => if p.conv = conv then { p with sealing := false } else p }
  let waits := Map.filterKV s2.reqs fun _ r => r.kind == .insert && r.status.isNone && r.conv == conv
  let s3 := waits.foldl (fun t kv => commitPlain kv.1 .absent t) (sealAbsent conv s2)
  let mirrored := s.streams.any fun kv => kv.1 / 256 == conv && kv.2.retained
  sweep (if mirrored ∧ !c.readOnly then sendRelease c.part conv s3 else s3)

/-- DELETE with OBJ 1. -/
def deleteConv (src : Src) (blk : Bytes) (s : State) : State :=
  let o := ObjBlk.ofBlock blk
  let answer (st : Status) (t : State) : State := finish src o.id st t 0 0 0 1 (t.chargeSlot o.comp)
  match s.heldConv o.handle with
  | none => answer .absent s
  | some c => if c.readOnly then answer .invalidMode s else answer .ok (dropConversation o.handle c s)

/-- DELETE with OBJ 2 (R74, R445). -/
def deleteMask (src : Src) (blk : Bytes) (part : Nat) (s : State) : State :=
  let o := ObjBlk.ofBlock blk
  let answer (st : Status) (t : State) : State := finish src o.id st t 0 0 0 1 (t.chargeSlot o.comp)
  match Map.find? s.masks o.handle with
  | some m =>
    if m.part = part ∧ !m.deleted then
      answer .ok (sweepMasks { s with masks := Map.insert s.masks o.handle { m with deleted := true } })
    else answer .absent s
  | none => answer .absent s

/-- DELETE with OBJ 3 (R176, R445). -/
def deleteEntry (src : Src) (blk : Bytes) (part : Nat) (s : State) : State :=
  let o := ObjBlk.ofBlock blk
  let answer (st : Status) (t : State) : State := finish src o.id st t 0 0 0 1 (t.chargeSlot o.comp)
  match s.keyEntry part (blockKey blk (hTenant o.handle) (o.handle % 65536) 0) with
  | some (i, _) => answer .ok (sweep (dropEntry i s))
  | none => answer .absent s

/-- The mask object a DELETE names is held here. -/
def State.maskHeld (s : State) (h : Nat) : Bool := match Map.find? s.masks h with | some m => !m.deleted | none => false

/-- The decoder's DELETE (R183). -/
def runDelete (src : Src) (blk : Bytes) (s : State) : State :=
  let o := ObjBlk.ofBlock blk
  let tenant := hTenant o.handle
  if !objCheck false blk then finish src o.id .invalidMode s
  else if o.obj = 1 then
    onObject opDelete src blk tenant (some o.handle) (s.heldConv o.handle).isSome (fun _ t => deleteConv src blk t) s
  else if o.obj = 2 then onObject opDelete src blk tenant (some o.handle) (s.maskHeld o.handle) (deleteMask src blk) s
  else if o.obj = 3 then onObject opDelete src blk tenant none false (deleteEntry src blk) s
  else if o.obj = 4 then onAdmin pgMex src blk (changeRule 2 src blk) s
  else onAdmin pgProf src blk (fun t =>
    let r := deleteProfile o.handle (t.masterOf src) t
    finish src o.id r.1 r.2 0 0 0 1 (t.chargeSlot o.comp)) s

/-! ## The commands -/

/-- INSERT_DIRECTORY_ENTRY. -/
def execInsertDirectoryEntry (src : Src) (blk : Bytes) (s : State) : Host.Outcome State Fault Refusal :=
  ok (serving opInsert src blk (runInsert src blk) s)

/-- INSERT_CLASS. -/
def execInsertClass (src : Src) (blk : Bytes) (s : State) : Host.Outcome State Fault Refusal :=
  ok (serving opInsert src blk (runInsert src blk) s)

/-- INSERT_RULE. -/
def execInsertRule (src : Src) (blk : Bytes) (s : State) : Host.Outcome State Fault Refusal :=
  ok (serving opInsert src blk (runInsert src blk) s)

/-- REPLACE_RULE. -/
def execReplaceRule (src : Src) (blk : Bytes) (s : State) : Host.Outcome State Fault Refusal :=
  ok (serving opInsert src blk (runInsert src blk) s)

/-- DELETE_CONVERSATION. -/
def execDeleteConversation (src : Src) (blk : Bytes) (s : State) : Host.Outcome State Fault Refusal :=
  ok (serving opDelete src blk (runDelete src blk) s)

/-- DELETE_MASK_OBJECT. -/
def execDeleteMaskObject (src : Src) (blk : Bytes) (s : State) : Host.Outcome State Fault Refusal :=
  ok (serving opDelete src blk (runDelete src blk) s)

/-- DELETE_DIRECTORY_ENTRY. -/
def execDeleteDirectoryEntry (src : Src) (blk : Bytes) (s : State) : Host.Outcome State Fault Refusal :=
  ok (serving opDelete src blk (runDelete src blk) s)

/-- DELETE_RULE. -/
def execDeleteRule (src : Src) (blk : Bytes) (s : State) : Host.Outcome State Fault Refusal :=
  ok (serving opDelete src blk (runDelete src blk) s)

/-- DELETE_PROFILE. -/
def execDeleteProfile (src : Src) (blk : Bytes) (s : State) : Host.Outcome State Fault Refusal :=
  ok (serving opDelete src blk (runDelete src blk) s)

end Sys2Proof.Machine
end

