-- ==== Sys2Proof/Machine/Tiers.lean ====
section
/-! DEFINITION. The Tier Manager (R189 to R195, R198, R201 to R206): age events, pressure demotion, the end and the failure of a
migration, and the end of a FETCH at the owner. -/
namespace Sys2Proof.Machine

/-! ## Grants given back (R201, R203) -/

/-- Sends a command block of the Keeper's own to a node, with a receive region for the result it does not wait for. -/
def sendKeeperCmd (node : Nat) (blk : Nat → Bytes) (s : State) : State :=
  match s.keeperConn node with
  | none => s
  | some conn =>
    match register 2 0 64 keeperOwner conn discardMark s with
    | none => s
    | some (idx, s1) =>
      let (n, s2) := s1.draw
      sendMessage conn (keeperMsg 1 false true 4 (blk (Config.freeChoice n)) (s2.rkey idx) 0) s2

/-- Returns a grant with LEND FORM 2 (Table 8-3). -/
def returnGrant (g : GrantIn) (s : State) : State :=
  let s1 := sendKeeperCmd g.lender (fun id => toLE 8 id ++ [2, 0, 0, 0] ++ toLE 4 g.grant ++ zeros 48) s
  { s1 with tier := { s1.tier with grantsIn := s1.tier.grantsIn.erase g } }

/-- Returns every grant that held pages, or is being reclaimed, and is empty (R201, R203). -/
def returnGrants (s : State) : State :=
  (s.tier.grantsIn.filter fun g => g.used == [] && (g.began || g.reclaim) && (s.keeperConn g.lender).isSome).foldl
    (fun t g => returnGrant g t) s

/-! ## The end of a migration -/

/-- A promotion has been written (R187, R188, R194, R198): a NAND copy stays as the shadow, a lent copy awaits release. -/
def promoted (h : Nat) (p : Page) (s : State) : State :=
  let s1 := if p.restoring then s else countUp pgTier 0x068 1 s
  let s2 := s1.updPage h fun q =>
    { q with state := .sealed, tier := 0, lastRegion := q.region, promoTime := s.time, restoring := false, lost := false,
             durable := false, heldHot := q.heldHot || q.target == some 0, target := none, shadow := if p.srcTier = 1 then q.loc else q.shadow, loc := none,
             srcHeld := decide (p.srcTier = 2), srcReaders := if p.srcTier = 2 then q.readers else [] }
  wakeItems h (releaseSource h (tierAccess p false (s.carried p) s2))

/-- A NAND copy has become durable (R194, R217). A page restored from its shadow was mapped already (R204, R336). -/
def demoted (h : Nat) (p : Page) (s : State) : State :=
  match p.loc with
  | none => s
  | some l =>
    if p.restoring then
      wakeItems h (releaseSource h <| s.updPage h fun q =>
        { q with state := .sealed, tier := 1, restoring := false, lost := false, durable := false, srcTier := 0, srcHeld := true,
                 srcReaders := [] })
    else
      let s1 := countUp pgTier 0x060 1 (s.setFlash (s.flash.mapIn l))
      releaseSource h (s1.updPage h fun q =>
        { q with state := .sealed, tier := 1, durable := false, heldHot := q.heldHot && q.target != some 1, target := none,
                 srcHeld := true, srcReaders := q.readers })

/-- A loan has been acknowledged (R194): the copy lent from awaits release. -/
def lent (h : Nat) (p : Page) (s : State) : State :=
  releaseSource h ((countUp pgTier 0x078 1 s).updPage h fun q =>
    { q with state := .lent, tier := 2, durable := false, heldHot := q.heldHot && q.target != some 2, target := none, srcHeld := true, srcReaders := q.readers,
             shadow := if p.srcTier = 1 then q.loc else q.shadow, loc := none })

/-- Whether the destination copy of a migrating page is complete and durable (R194). -/
def State.destDurable (s : State) (p : Page) : Bool :=
  if p.dest = 1 then
    match p.loc with
    | some l => p.restoring || (s.flash.durable l && s.flash.dirtyRoom l)
    | none => false
  else p.durable

/-- A restoration from the partner has failed (R350). A RETAINED page never enters ABSENT (R49): a sealed page stays MIGRATING, lost,
until its partner's connection returns, and its queries wait (log entry 135); an OPEN page is cut before its first lost slot, as one
without a mirrored image is (R336). -/
def restoreFailed (h : Nat) (s : State) : State :=
  match Map.find? s.pages h with
  | none => s
  | some p =>
    if p.state = .opened then
      wakeItems h ((cutPage h p.lostFrom p s).updPage h fun q => { q with restoring := false, lostFrom := 0 })
    else s.updPage h fun q => { q.freeHbm with lost := true, durable := false }

/-- A migration fails (R195): with the source still valid the page returns to it and TIER_SKIP counts. The restoration of a page, which
has no other copy here, begins again. -/
def migrationFail (h : Nat) (s : State) : State :=
  match Map.find? s.pages h with
  | none => s
  | some p =>
    if p.state ≠ .migrating then s
    else if p.restoring then (if p.dest = 0 then beginRestore h s else s)
    else
      let f := match p.loc with
        | some l => if p.dest = 1 then s.flash.unwrite l else s.flash
        | none => s.flash
      let s1 := if p.dest = 2 then freeGrant h (s.setFlash f) else s.setFlash f
      let s2 := s1.updPage h fun q =>
        let q1 := if p.dest = 0 then q.freeHbm else if p.dest = 1 then { q with loc := none } else { q with lend := none }
        { q1 with state := if p.srcTier = 2 then .lent else .sealed, durable := false, target := none,
                  region := if p.dest = 0 then q.lastRegion else q.region }
      wakeItems h (skipTarget s2)

/-- Whether a migration into NAND still waits behind collection for its programs (R222). -/
def State.awaitsProgram (s : State) (h : Nat) (p : Page) : Bool :=
  p.state == .migrating && p.dest == 1 && p.loc.isNone && !s.tier.fetches.any fun f => f.page == h && f.why == 1

/-- A program that waited behind collection starts, unless it still has to wait; a tier that has no room for it any more fails the
migration. -/
def programLate (h : Nat) (p : Page) (s : State) : State :=
  if !s.flash.serving ∨ s.flash.programsWait s.flash.channel (s.field pgFlm 0x064 0 8) then s
  else match programForm h p s with
    | some t => t
    | none => migrationFail h s

/-- MIGRATION_COMPLETE: a page whose destination copy is durable leaves MIGRATING (R194). A promotion from NAND reads its copy only once
the mount is over (R230). -/
def migrationComplete (h : Nat) (s : State) : State :=
  match Map.find? s.pages h with
  | none => s
  | some p =>
    if s.awaitsProgram h p then programLate h p s
    else if p.state ≠ .migrating ∨ !s.destDurable p ∨ (p.dest = 0 ∧ p.srcTier = 1 ∧ s.flash.mounting) then s
    else if p.dest = 0 then promoted h p s
    else if p.dest = 1 then demoted h p s
    else lent h p s

/-! ## Pages brought home (R203) -/

/-- Whether the NAND tier is ONLINE and not full (R191, R207 TIER_NAND). -/
def Flash.full (f : Flash) : Bool := f.st != 0 && f.freeUnits == 0
def Flash.open_ (f : Flash) : Bool := f.st == 1 && !f.full

/-- Moves one lent page home or to NAND, the first destination of R203 that applies. -/
def bringHome (h : Nat) (s : State) : State :=
  match Map.find? s.pages h with
  | none => s
  | some p =>
    if p.shadow.isSome then descend h s
    else
      let need := blocksOf (storedBytes (s.pageGeo p) p.fmt)
      if need ≤ s.partFree p.part (s.bestRegion p.part) then (beginPromote h s).getD s
      else if s.flash.open_ then (beginDemote h s).2
      else if p.retained then s
      else wakeItems h (toAbsent h s)

/-- The LENT pages of a grant. -/
def State.lentIn (s : State) (g : GrantIn) : List Nat :=
  Map.keys (Map.filterKV s.pages fun _ p => p.state == .lent && (match p.lend with
    | some l => l.lender == g.lender && l.grant == g.grant
    | none => false))

/-- What the owner does while a grant of its is being reclaimed (R203): every LENT page in it that can move does, one that was still on
its way in or held by a reader of its last migration as soon as it can; a grant left empty is returned. -/
def evacuate (s : State) : State :=
  let mine := (s.tier.grantsIn.filter fun g => g.reclaim).flatMap s.lentIn
  returnGrants (mine.foldl (fun t h => match Map.find? t.pages h with
    | some p => if p.movable ∧ p.state = .lent then bringHome h t else t
    | none => t) s)

/-- MIGRATION_COMPLETE. -/
def execMigrationComplete (page : Nat) (s : State) : Host.Outcome State Fault Refusal :=
  ok (whenReady (whenOpen 21 fun t => evacuate (migrationComplete page t)) s)

/-- MIGRATION_FAIL. -/
def execMigrationFail (page : Nat) (s : State) : Host.Outcome State Fault Refusal :=
  ok (whenReady (fun t => evacuate (migrationFail page t)) s)

/-- SOURCE_COPY_RELEASE (R194, R201). -/
def execSourceCopyRelease (page : Nat) (s : State) : Host.Outcome State Fault Refusal :=
  ok (whenReady (fun t => evacuate (releaseSource page t)) s)

/-! ## The end of a FETCH at the owner (R198, R202, R204, R350) -/

/-- The bytes of a FETCH have passed their tags: a streamed item has its page, a promotion is written, a demotion goes on into
NAND. -/
def fetchGood (f : FetchRec) (p : Page) (s : State) : State :=
  if f.why = 0 then
    s.updReq f.req fun r => { r with items := r.items.modify f.item fun it =>
      if it.page = f.page ∧ it.state = .fetching then { it with state := .fetched } else it }
  else if p.state ≠ .migrating then s
  else if p.dest = 0 then s.updPage f.page fun q => { q with durable := true }
  else
    let r := writeNand f.page p s
    if r.1 = .ok then r.2.updPage f.page fun q => { q with srcTier := 2 } else migrationFail f.page r.2

/-- A restoration has its bytes, under the partner's PGEN (R350): an OPEN page goes on to its seal sequence, and the queries bound to it
are dispatched again; any other is written to HBM. -/
def restoreGood (h pgen : Nat) (p : Page) (s : State) : State :=
  if !p.restoring then s
  else if p.state = .opened then wakeItems h (s.updPage h fun q => { q with restoring := false, lostFrom := 0, pgen })
  else if p.state = .migrating ∧ p.dest = 0 then s.updPage h fun q => { q with durable := true, pgen }
  else s

/-- A FETCH from a lender has ended without good bytes. A tag that fails, or INTEGRITY, loses the page, and the query that streamed it
ends with INTEGRITY (R81, R202, R204); after any other status the migration is abandoned, or the read tried again. -/
def fetchBad (f : FetchRec) (p : Page) (integrity : Bool) (s : State) : State :=
  let lentNow := p.state = .lent ∨ (p.state = .migrating ∧ p.srcTier = 2)
  if integrity then
    let s1 := if f.why = 0 then
        match (s.live f.req).bind fun r => r.items[f.item]? with
        | some it => failQuery f.req .integrity it.entry 0 s
        | none => s
      else s
    if lentNow then lentLost f.page s1 else s1
  else if f.why = 0 then wakeItems f.page s
  else migrationFail f.page s

/-- A FETCH has ended: its receive region holds the page's ciphertext and tags, and behind them the result block. The owner checks the
tags against its lend record (R202); of a restored page the generation is the partner's, not above the one here (log entry 135). -/
def fetchDone (idx : Nat) (s : State) : State :=
  match s.tier.fetches.find? fun f => f.region == idx, Map.find? s.pft.regions idx with
  | some f, some r =>
    let s1 := deregister idx { s with tier := { s.tier with fetches := s.tier.fetches.filter fun x => x.region != idx } }
    match Map.find? s.pages f.page with
    | none => s1
    | some p =>
      let len := s.carried p
      let status := byteAt (r.bytes (roundUp len 64) 32) 8
      let pass (pgen : Nat) : Bool := tagsPass (s.partKeys p.part) p.space f.page pgen (s.unitsIn p) (r.bytes 0 len)
      let s2 := meter p.slot 4 len s1
      if f.why = 2 then
        match if status = 0 then (List.range (p.pgen + 1)).reverse.find? pass else none with
        | some pgen => restoreGood f.page pgen p s2
        | none => if p.restoring then restoreFailed f.page s2 else s2
      else if status = 0 ∧ pass (match p.lend with | some l => l.pgen | none => p.pgen) then fetchGood f p s2
      else fetchBad f p (status == 0 || status == Status.integrity.code) s2
  | _, _ => s

/-- A grant request is answered (R200, R201): the owner's Keeper enters the grant. -/
def grantArrived (idx : Nat) (s : State) : State :=
  match s.tier.asked.find? fun a => a.2.2 == idx, Map.find? s.pft.regions idx with
  | some a, some r =>
    let b := r.bytes 0 32
    let s1 := deregister idx { s with tier := { s.tier with asked := s.tier.asked.filter fun x => x.2.2 != idx } }
    if byteAt b 8 = 0 then
      let g : GrantIn := { lender := a.1, grant := leAt b 16 4, rkey := leAt b 20 4, mib := leAt b 24 4, used := [],
                           reclaim := false, till := 0, began := false }
      { s1 with tier := { s1.tier with grantsIn := s1.tier.grantsIn ++ [g] } }
    else s1
  | _, _ => s

/-- The loss of the Keeper connection to a lender loses every page lent to it (R204), and the grants with it. -/
def lenderLost (node : Nat) (s : State) : State :=
  let mine := Map.keys (Map.filterKV s.pages fun _ p => match p.lend with
    | some l => l.lender == node && (p.state == .lent || (p.state == .migrating && p.srcTier == 2))
    | none => false)
  let s1 := mine.foldl (fun t h => lentLost h t) s
  let going := Map.keys (Map.filterKV s1.pages fun _ p => p.state == .migrating && p.dest == 2 && (match p.lend with
    | some l => l.lender == node | none => false))
  let s2 := going.foldl (fun t h => migrationFail h t) s1
  { s2 with tier := { s2.tier with grantsIn := s2.tier.grantsIn.filter fun g => g.lender != node,
                                   asked := s2.tier.asked.filter fun a => a.1 != node } }

/-- FETCHes that ran on a connection that fails have ended without their bytes: a page being restored waits, any other is lost. -/
def fetchesLost (conn : Nat) (s : State) : State :=
  let mine := s.tier.fetches.filter fun f => match Map.find? s.pft.regions f.region with
    | some r => r.fn == conn
    | none => true
  mine.foldl (fun t f =>
    let t1 := deregister f.region { t with tier := { t.tier with fetches := t.tier.fetches.erase f } }
    if f.why = 2 then t1
    else match Map.find? t1.pages f.page with
      | some p => if p.state = .lent ∨ (p.state = .migrating ∧ p.srcTier = 2) then lentLost f.page t1 else t1
      | none => t1) s

/-- Tries a restoration from the partner again. -/
def restoreOnce (h : Nat) (s : State) : State :=
  match Map.find? s.pages h with
  | some p => if p.state = .opened then askPartner h s else beginRestore h s
  | none => s

/-- Pages that wait for their restoration from a partner, lost ones only where `lostToo`. -/
def State.waitingRestore (s : State) (lostToo : Bool) (node : Option Nat) : List Nat :=
  Map.keys (Map.filterKV s.pages fun h p => p.restoring && (p.state == .opened || p.dest == 0) && !p.durable && (lostToo || !p.lost)
    && !s.restoresNow h && (node.isNone || ((s.part? p.part).bind (·.partner)) == node))

/-- Pages that wait for their mirror partner are fetched again when its connection returns (R204, R336). -/
def restoreAgain (node : Nat) (s : State) : State := (s.waitingRestore true (some node)).foldl (fun t h => restoreOnce h t) s

/-- A restoration that had no HBM, no connection or no receive region is tried again (R204). -/
def restoreWaiting (s : State) : State := (s.waitingRestore false none).foldl (fun t h => restoreOnce h t) s

/-! ## AGE_EVENT (R190) -/

/-- Whether the Tier Manager moves pages of a partition on its own (R189, R192). -/
def State.unified (s : State) (part : Nat) : Bool := match s.part? part with | some p => !p.flagged | none => false

/-- AGE_EVENT: the background scan finds a sealed page's age bucket changed and evaluates the rules' TIER for it. -/
def ageEvent (h : Nat) (s : State) : State :=
  match Map.find? s.pages h with
  | none => s
  | some p =>
    let b := ageBucket s.time p.sealTime
    if p.state = .opened ∨ p.state = .absent ∨ !s.unified p.part ∨ b = p.age then s
    else
      let s1 := s.updPage h fun q => { q with age := b }
      carryTier h (bitsOf (s1.ruleAction (s1.pageKey p b 2)) 0 2) s1

/-- AGE_EVENT. -/
def execAgeEvent (page : Nat) (s : State) : Host.Outcome State Fault Refusal := ok (whenReady (whenOpen 21 (ageEvent page)) s)

/-! ## PRESSURE_EVAL (R191) -/

/-- Blocks of a partition's share that are free, and those that demotions already running will free. -/
def State.shareFree (s : State) (part : Nat) : Nat := (List.range 16).foldl (fun n r => n + s.partFree part r) 0
def State.shareComing (s : State) (part : Nat) : Nat :=
  s.pages.foldl (fun n kv =>
    if kv.2.part = part ∧ kv.2.tier = 0 ∧ kv.2.state = .migrating ∧ kv.2.dest = 1 then n + kv.2.hbmBlocks else n) 0

/-- Blocks of a partition's share over all regions. -/
def State.shareAll (s : State) (part : Nat) : Nat := match s.part? part with | some p => 16 * shareBlocks p.units | none => 0

/-- Whether pressure demotion may take a page: sealed in HBM, not held hot, without accepted readers (R191). -/
def Page.pressable (p : Page) (part : Nat) (shadowed : Bool) : Bool :=
  p.part == part && p.state == .sealed && p.tier == 0 && !p.heldHot && !p.srcHeld && p.readers == []
    && p.shadow.isSome == shadowed

/-- The oldest-sealed page that pressure demotion may take. -/
def State.oldest (s : State) (part : Nat) (shadowed : Bool) : Option Nat :=
  (s.pages.foldl (fun b kv =>
    if kv.2.pressable part shadowed then
      match b with
      | some c => if kv.2.sealTime < c.2 then some (kv.1, kv.2.sealTime) else b
      | none => some (kv.1, kv.2.sealTime)
    else b) (none : Option (Nat × Nat))).map (·.1)

/-- Whether the tier is ONLINE and has room for a form of `n` bytes, shadows of HBM-resident pages counting as room (R206). -/
def State.nandTakes (s : State) (n : Nat) : Bool :=
  s.flash.st == 1 && ((makeNandRoom n s.pages.length s).flash.write n).isSome

/-- Demotes pages of a partition until its free HBM reaches HIGH_PCT: those with a shadow first, then the oldest sealed. A refusal
suspends the partition's pressure demotion. `fuel` bounds the pages tried. -/
def relieve (part high : Nat) : Nat → State → State
  | 0, s => s
  | fuel + 1, s =>
    if high * s.shareAll part ≤ 100 * (s.shareFree part + s.shareComing part) then s
    else match s.oldest part true with
      | some h => relieve part high fuel (descend h s)
      | none =>
        if Map.has s.tier.suspended part then s
        else match s.oldest part false with
          | none => s
          | some h =>
            let r := beginDemote h s
            if r.1 = .ok then relieve part high fuel r.2
            else
              let n := match Map.find? s.pages h with | some p => nandBytes (s.pageGeo p) p.fmt | none => 0
              { skipTarget r.2 with tier := { r.2.tier with suspended := Map.insert r.2.tier.suspended part n } }

/-- One partition's evaluation (R191): demotion starts below LOW_PCT and goes on, over evaluations, until HIGH_PCT; a suspension ends when
the form refused fits again, or at HIGH_PCT. -/
def pressure (part : Nat) (s : State) : State :=
  let low := s.field pgTier 0x040 0 7
  let high := s.field pgTier 0x040 8 7
  let reached := decide (high * s.shareAll part ≤ 100 * s.shareFree part)
  let fitsNow : Bool := match Map.find? s.tier.suspended part with | some n => s.nandTakes n | none => false
  let s1 : State := if reached ∨ fitsNow then { s with tier := { s.tier with suspended := Map.erase s.tier.suspended part } } else s
  let on := s1.tier.relieving.contains part
  if reached then { s1 with tier := { s1.tier with relieving := s1.tier.relieving.filter (· != part) } }
  else if on then relieve part high s1.pages.length s1
  else if 100 * s1.shareFree part < low * s1.shareAll part then
    relieve part high s1.pages.length (setCause pgTier 0 { s1 with tier := { s1.tier with relieving := s1.tier.relieving ++ [part] } })
  else s1

/-- PRESSURE_EVAL: every UNIFIED partition is evaluated (R191). With it the Tier Manager takes up what waits: restorations, pages of
grants being reclaimed, and emptied grants, which go back (R201, R203, R204). -/
def pressureEval (s : State) : State :=
  let s1 := if s.field pgTier 0x040 16 1 = 1 then
      (Map.keys (Map.filterKV s.parts fun _ p => !p.flagged)).foldl (fun t p => pressure p t) s
    else s
  evacuate (restoreWaiting s1)

/-- PRESSURE_EVAL. -/
def execPressureEval (s : State) : Host.Outcome State Fault Refusal := ok (whenReady pressureEval s)

end Sys2Proof.Machine
end

