-- ==== Sys2Proof/Machine/Lend.lean ====
section
/-! DEFINITION. LEND, FETCH and RECLAIM (R199 to R204, R350): at the lender or mirror partner, and the reclaim notice at the owner. -/
namespace Sys2Proof.Machine

/-- The fields of a LEND block (Table 8-3). -/
structure LendBlk where
  id : Nat
  form : Nat
  flag : Nat
  sticky : Bool
  layer : Nat
  first : Nat
  count : Nat
  conv : Nat
  epoch : Nat
  comp : Nat
deriving DecidableEq, Repr

/-- Reads a LEND block. -/
def LendBlk.ofBlock (b : Bytes) : LendBlk :=
  { id := blkId b, form := bitsOf (byteAt b 8) 0 2, flag := bitsOf (byteAt b 8) 2 2, sticky := bitOf (byteAt b 8) 4,
    layer := byteAt b 9, first := leAt b 12 4, count := bitsOf (leAt b 16 4) 0 17, conv := leAt b 24 8, epoch := leAt b 40 4,
    comp := leAt b 44 4 }

/-- A LEND block's length, reserved fields and encodings (Table 8-3). -/
def LendBlk.check1 (b : Bytes) : Bool :=
  let l := LendBlk.ofBlock b
  decide (b.length = 64 ∧ l.form ≤ 2) && zbits b 8 1 5 3 && zerosAt b 10 2 && zbits b 16 4 17 15 && zerosAt b 20 4 && zerosAt b 32 8
    && zerosAt b 48 16
    && (if l.form = 1 then decide (l.flag ≤ 2 ∧ l.count ≤ 65536)
        else l.flag == 0 && !l.sticky && l.layer == 0 && l.conv == 0
          && (if l.form = 0 then decide (l.first = 0 ∧ 1 ≤ l.count ∧ l.count ≤ 65536) else l.count == 0))

/-- A LEND result: REQ_ID, STATUS and three words from byte 16 (R199). -/
def lendResult (id status a b c : Nat) : Bytes :=
  toLE 8 id ++ BitVec.ofNat 8 status :: zeros 7 ++ toLE 4 a ++ toLE 4 b ++ toLE 4 c ++ zeros 4

/-- MiB of the pool that no partition reserves and no grant holds (TIER_LENDABLE, R36): the HBM of a retired region and of rows retired
for want of a spare has left the pool (R335, R343), and a share unit covers 16 MiB of each remaining region. -/
def State.lendable' (s : State) : Nat :=
  let units := s.parts.foldl (fun n kv => n + kv.2.units) 0
  let left (r : Nat) : Nat := if (s.region r).retired then 0 else (s.poolMib * 256 - (s.region r).lostBlocks) / 256 - 16 * units
  (List.range 16).foldl (fun n r => n + left r) 0 - s.tier.grantsOut.foldl (fun n kv => n + kv.2.mib) 0

/-- The node at the other end of the Keeper connection a command came on. -/
def State.keeperPeer (s : State) (src : Src) : Option Nat :=
  match src with
  | .pft conn _ _ _ => match Map.find? s.pft.conns conn with | some c => if c.keeper then some c.node else none | none => none
  | _ => none

/-- Commits a LEND, FETCH or RECLAIM at once; their results are of source kind 4 (Table 11-1). -/
def endLend (src : Src) (id : Nat) (st : Status) (comp a b c : Nat) (s : State) : State :=
  deliver src 4 id st.code 0 (s.chargeSlot comp) (lendResult id st.code a b c) (recordDone id (s.masterOf src) st.code s)

/-- The checks every LEND form shares: the block, who may send it (Table 12-3: the Keeper sends FORMs 0 and 2), and the composition
(R361). `go` gets the owner's node. -/
def onKeeperLend (src : Src) (blk : Bytes) (go : Nat → State → State) (s : State) : State :=
  let l := LendBlk.ofBlock blk
  let stop (st : Status) : State := endLend src l.id st l.comp 0 0 0 s
  if !LendBlk.check1 blk then stop .invalidMode
  else match s.keeperPeer src with
    | none => stop .invalidMode
    | some node => match s.compCheck l.comp l.epoch none false with
      | .stale => answerComp .staleEpoch src l.id l.comp none s
      | .pass _ => go node s
      | _ => stop .invalidMode

/-- LEND FORM 0 (R200): whole MiB up to the amount asked, as a region of the Keeper's. -/
def grantRequest (src : Src) (blk : Bytes) (s : State) : State :=
  let l := LendBlk.ofBlock blk
  onKeeperLend src blk (fun node t =>
    let mib := min l.count t.lendable'
    if t.role ≠ 2 ∧ t.role ≠ 3 then endLend src l.id .invalidMode l.comp 0 0 0 t
    else if mib = 0 then endLend src l.id .full l.comp 0 0 0 t
    else match register 2 0 (mib * 2 ^ 20) keeperOwner 0 0 t with
      | none => endLend src l.id .full l.comp 0 0 0 t
      | some (idx, t1) =>
        let gid := Map.lowestFree t1.tier.grantsOut 1
        let g : GrantOut := { owner := node, mib, rkey := idx, slot := t1.chargeSlot l.comp, noPlace := false }
        endLend src l.id .ok l.comp gid (t1.rkey idx) mib
          { t1 with tier := { t1.tier with grantsOut := Map.insert t1.tier.grantsOut gid g } }) s

/-- Discards a grant at the lender: its region goes. -/
def dropGrant (gid : Nat) (s : State) : State :=
  match Map.find? s.tier.grantsOut gid with
  | none => s
  | some g =>
    let s1 := deregister g.rkey s
    { s1 with tier := { s1.tier with grantsOut := Map.erase s1.tier.grantsOut gid } }

/-- Whether a page is in transit into a grant: a FIN write into its region has not completed (R200, R256). -/
def State.inTransit (s : State) (g : GrantOut) : Bool := s.pft.finHold.any fun f => f.rkey / 65536 == g.rkey

/-- Completes grant returns whose grants nothing is in transit into (R200). -/
def settleReturns (s : State) : State :=
  let mine := Map.filterKV s.reqs fun _ r => r.kind == .lend && r.status.isNone
  mine.foldl (fun t kv =>
    let gid := (LendBlk.ofBlock kv.2.blk).first
    match Map.find? t.tier.grantsOut gid with
    | some g => if t.inTransit g then t else commitReq kv.1 .ok (lendResult kv.2.id 0 0 0 0) (dropGrant gid t)
    | none => commitReq kv.1 .ok (lendResult kv.2.id 0 0 0 0) t) s

/-- Whether a grant holds LENT pages, as its return finds it (R200). The lend records are the owner's (R201), and how its lender comes to
know them is not stated: of a grant into which nothing was ever written none is lent, of any other the answer is free (log entry 84). -/
def State.holdsLent (s : State) (g : GrantOut) : Bool :=
  let written : Bool := match Map.find? s.pft.regions g.rkey with | some r => r.mem != [] | none => false
  written && Config.freeChoice s.fresh % 2 == 1

/-- LEND FORM 2 (R200). A grant that this owner does not hold is refused; one that holds LENT pages gives BUSY. -/
def grantReturn (src : Src) (blk : Bytes) (s : State) : State :=
  let l := LendBlk.ofBlock blk
  onKeeperLend src blk (fun node t =>
    match Map.find? t.tier.grantsOut l.first with
    | none => endLend src l.id .invalidMode l.comp 0 0 0 t
    | some g =>
      if g.owner ≠ node then endLend src l.id .invalidMode l.comp 0 0 0 t
      else if t.holdsLent g then endLend src l.id .busy l.comp 0 0 0 { t with fresh := t.fresh + 1 }
      else
        let r := { Req.initial .lend l.id src (t.masterOf src) none (t.chargeSlot l.comp) blk with entryUsed := false }
        settleReturns (addReq r t).2) s

/-- What became of a placement so far: moved, skipped, the first refusal. -/
structure Moved where
  moved : Nat
  skipped : Nat
  st : Status

/-- Moves one page of a placement to the flag's tier (R200, R205, R206). -/
def placeOne (h flag : Nat) (acc : Moved × State) : Moved × State :=
  let skip (t : State) : Moved × State := ({ acc.1 with skipped := acc.1.skipped + 1 }, t)
  let did (t : State) : Moved × State := ({ acc.1 with moved := acc.1.moved + 1 }, t)
  match Map.find? acc.2.pages h with
  | none => skip acc.2
  | some p =>
    if p.state = .opened ∨ p.state = .absent then skip acc.2
    else if p.tier = flag ∧ p.state ≠ .migrating then did acc.2
    else if !p.movable then skip acc.2
    else if flag = 0 then
      match beginPromote h acc.2 with
      | some t => did t
      | none => skip acc.2
    else if flag = 1 then
      let r := beginDemote h acc.2
      if r.1 = .ok then did r.2
      else ({ acc.1 with skipped := acc.1.skipped + 1, st := if acc.1.st = .ok then r.1 else acc.1.st }, r.2)
    else if !acc.2.lendable p then skip (skipTarget acc.2)
    else
      let r := beginLend h acc.2
      if r.1 then did r.2 else skip r.2

/-- LEND FORM 1 (R200). -/
def placement (src : Src) (blk : Bytes) (s : State) : State :=
  let l := LendBlk.ofBlock blk
  if !LendBlk.check1 blk then endLend src l.id .invalidMode l.comp 0 0 0 s
  else onObject opLend src blk (hTenant l.conv) (some l.conv) (s.heldConv l.conv).isSome (fun part t =>
    match t.heldConv l.conv with
    | none => endLend src l.id .absent l.comp 0 0 0 t
    | some c =>
      if t.outside c l.layer ∨ t.unified part ∨ (l.flag = 2 ∧ t.role = 2) then endLend src l.id .invalidMode l.comp 0 0 0 t
      else
        let at_ (k : Nat) : Option Nat := (t.stream? l.conv l.layer).bind fun st => Map.find? st.entries (l.first + k)
        let one (acc : Moved × State) (k : Nat) : Moved × State := match at_ k with
          | some h => placeOne h l.flag acc
          | none => ({ acc.1 with skipped := acc.1.skipped + 1 }, acc.2)
        let r := (List.range l.count).foldl one ({ moved := 0, skipped := 0, st := .ok }, t)
        let t1 := if l.sticky then r.2.updStream l.conv l.layer fun x => { x with flag := l.flag } else r.2
        endLend src l.id r.1.st l.comp r.1.moved r.1.skipped 0 t1) s

/-- The decoder's LEND. -/
def runLend (src : Src) (blk : Bytes) (s : State) : State :=
  let f := (LendBlk.ofBlock blk).form
  if f = 0 then grantRequest src blk s
  else if f = 1 then placement src blk s
  else if f = 2 then grantReturn src blk s
  else endLend src (blkId blk) .invalidMode 0 0 0 0 s

/-- LEND_GRANT_REQUEST. -/
def execLendGrantRequest (src : Src) (blk : Bytes) (s : State) : Host.Outcome State Fault Refusal :=
  ok (serving opLend src blk (runLend src blk) s)

/-- LEND_PLACEMENT. -/
def execLendPlacement (src : Src) (blk : Bytes) (s : State) : Host.Outcome State Fault Refusal :=
  ok (serving opLend src blk (runLend src blk) s)

/-- LEND_GRANT_RETURN. -/
def execLendGrantReturn (src : Src) (blk : Bytes) (s : State) : Host.Outcome State Fault Refusal :=
  ok (serving opLend src blk (runLend src blk) s)

/-! ## FETCH (R202, R350) -/

/-- The fields of a FETCH block. -/
structure FetchBlk where
  id : Nat
  grant : Nat
  off : Nat
  len : Nat
  rkey : Nat
  dest : Nat
  page : Nat
deriving DecidableEq, Repr

/-- Reads a FETCH block. -/
def FetchBlk.ofBlock (b : Bytes) : FetchBlk :=
  { id := blkId b, grant := leAt b 8 4, off := leAt b 12 4, len := leAt b 16 4, rkey := leAt b 20 4, dest := leAt b 24 8,
    page := leAt b 32 8 }

/-- Answers a FETCH with WRITEs, FIN on the last of them (R202), and completes it OK. -/
def answerFetch (src : Src) (f : FetchBlk) (slot : Nat) (data : Bytes) (s : State) : State :=
  match src with
  | .pft conn _ _ _ =>
    let s1 := meter slot 4 data.length (sendMessage conn (keeperMsg 2 true false 4 data f.rkey f.dest) s)
    deliver src 4 f.id 0 0 slot (lendResult f.id 0 0 0 0) (recordDone f.id (s.masterOf src) 0 s1)
  | _ => s

/-- FETCH: from a grant's region, or from the mirror store (R350). Only a Keeper sends it (Table 12-3). -/
def runFetch (src : Src) (blk : Bytes) (s : State) : State :=
  let f := FetchBlk.ofBlock blk
  let stop (st : Status) : State := endLend src f.id st 0 0 0 0 s
  let good := blk.length == 64 && zerosAt blk 40 24 && (f.grant == mirrorStore || zerosAt blk 32 8)
  match s.keeperPeer src with
  | none => stop .invalidMode
  | some node =>
    if !good then stop .invalidMode
    else if f.grant = mirrorStore then
      match Map.find? s.pages f.page with
      | none => stop .absent
      | some p =>
        let mine : Bool := match Map.find? s.convs p.conv with
          | some c => c.primaryNode == some node && !c.deleting
          | none => false
        if !mine ∨ p.state = .absent then stop .absent
        else
          let all := s.protectedPage f.page p
          if all.length < 4096 * f.off + f.len then stop .invalidMode
          else answerFetch src f p.slot (slice all (4096 * f.off) f.len) s
    else match Map.find? s.tier.grantsOut f.grant with
      | none => stop .invalidMode
      | some g =>
        if g.owner ≠ node ∨ g.mib * 2 ^ 20 < 4096 * f.off + f.len then stop .invalidMode
        else match Map.find? s.pft.regions g.rkey with
          | none => stop .invalidMode
          | some r => answerFetch src f g.slot (r.bytes (4096 * f.off) f.len) s

/-- FETCH. -/
def execFetch (src : Src) (blk : Bytes) (s : State) : Host.Outcome State Fault Refusal :=
  ok (serving opFetch src blk (runFetch src blk) s)

/-! ## RECLAIM (R203) -/

/-- GRANT_ID that means every grant. -/
def everyGrant : Nat := 0xFFFFFFFF

/-- The grants a RECLAIM names. -/
def State.grantsNamed (s : State) (gid : Nat) : List Nat :=
  Map.keys (Map.filterKV s.tier.grantsOut fun k _ => gid == everyGrant || k == gid)

/-- Starts a reclaim at the lender: no new placements, and a notice to each owner (R203): a RECLAIM block on the Keeper
connection. -/
def startReclaim (gids : List Nat) (graceMs : Nat) (s : State) : State :=
  gids.foldl (fun t gid => match Map.find? t.tier.grantsOut gid with
    | none => t
    | some g =>
      let t1 : State := { t with tier := { t.tier with grantsOut := Map.insert t.tier.grantsOut gid { g with noPlace := true } } }
      sendKeeperCmd g.owner (fun id => toLE 8 id ++ toLE 4 gid ++ toLE 2 graceMs ++ zeros 50) t1) s

/-- RECLAIM_NOTICE: an owner moves every affected page (R203), and returns the grant once it is empty. -/
def reclaimNotice (lender grant graceMs : Nat) (s : State) : State :=
  let hit (g : GrantIn) : Bool := g.lender == lender && (grant == everyGrant || g.grant == grant)
  let mark (g : GrantIn) : GrantIn := if hit g then { g with reclaim := true, till := s.time + 1000000 * graceMs } else g
  evacuate (setCause pgTier 4 { s with tier := { s.tier with grantsIn := s.tier.grantsIn.map mark } })

/-- RECLAIM_NOTICE. -/
def execReclaimNotice (lender grant graceMs : Nat) (s : State) : Host.Outcome State Fault Refusal :=
  ok (whenReady (reclaimNotice lender grant graceMs) s)

/-- RECLAIM (R203). From a Keeper connection it is the notice to an owner. -/
def runReclaim (src : Src) (blk : Bytes) (s : State) : State :=
  let id := blkId blk
  let gid := leAt blk 8 4
  let ms := leAt blk 12 2
  let grace := if ms = 0 then max 1 (s.field pgTier 0x048 0 10) else ms
  let stop (st : Status) : State := endLend src id st 0 0 0 0 s
  if blk.length ≠ 64 ∨ !zerosAt blk 14 50 ∨ 1000 < ms then stop .invalidMode
  else match s.keeperPeer src with
    | some node => endLend src id .ok 0 0 0 0 (reclaimNotice node gid grace s)
    | none =>
      let gids := s.grantsNamed gid
      if gids = [] ∧ gid ≠ everyGrant then stop .absent
      else
        let r := { Req.initial .reclaim id src (s.masterOf src) (s.srcPart src) 16 blk with
          deadline := some (s.time + 1000000 * grace), waits := gids, entryUsed := false }
        (addReq r (startReclaim gids grace s)).2

/-- RECLAIM. -/
def execReclaim (src : Src) (blk : Bytes) (s : State) : Host.Outcome State Fault Refusal :=
  ok (serving opReclaim src blk (runReclaim src blk) s)

/-- At an owner, the end of a reclaim's grace period: pages still LENT in the grant are lost (R203, R204). -/
def graceOver (s : State) : State :=
  let past := s.tier.grantsIn.filter fun g => g.reclaim && decide (g.till ≤ s.time)
  let dead (l : LendRec) : Bool := past.any fun g => g.lender == l.lender && g.grant == l.grant
  let mine := Map.keys (Map.filterKV s.pages fun _ p => p.state == .lent && (match p.lend with | some l => dead l | none => false))
  let s1 := mine.foldl (fun t h => lentLost h t) s
  { s1 with tier := { s1.tier with grantsIn := s1.tier.grantsIn.filter fun g => !(g.reclaim && decide (g.till ≤ s.time)) } }

/-- RECLAIM_GRACE_EXPIRY: the lender discards what remains in the grants and completes the RECLAIM. -/
def reclaimOver (i : Nat) (s : State) : State :=
  match Map.find? s.reqs i with
  | some r =>
    if r.kind = .reclaim ∧ r.status.isNone ∧ r.deadline.getD 0 ≤ s.time then
      commitReq i .ok (lendResult r.id 0 0 0 0) (r.waits.foldl (fun t g => dropGrant g t) s)
    else s
  | none => s

/-- RECLAIM_GRACE_EXPIRY. -/
def execReclaimGraceExpiry (req : Nat) (s : State) : Host.Outcome State Fault Refusal :=
  ok (whenReady (fun t => graceOver (reclaimOver req t)) s)

end Sys2Proof.Machine
end

