-- ==== Sys2Proof/Machine/Handover.lean ====
section
/-! DEFINITION. MIRROR (R344, R350, R351), the handover of a conversation (R365) and forwarding stubs (R364). -/
namespace Sys2Proof.Machine

/-- The fields of a MIRROR block (R344). -/
structure MirrorBlk where
  id : Nat
  form : Nat
  part : Nat
  node : Nat
  conv : Nat
  layer : Nat
  force : Bool
  epoch : Nat
  comp : Nat
deriving DecidableEq, Repr

/-- Reads a MIRROR block. -/
def MirrorBlk.ofBlock (b : Bytes) : MirrorBlk :=
  { id := blkId b, form := byteAt b 8, part := byteAt b 9, node := bitsOf (leAt b 10 2) 0 12, conv := leAt b 16 8,
    layer := byteAt b 24, force := bitOf (byteAt b 25) 0, epoch := leAt b 40 4, comp := leAt b 44 4 }

/-- A MIRROR block's length, reserved fields and encodings; a field that another form uses is reserved in this one. -/
def MirrorBlk.check1 (b : Bytes) : Bool :=
  let m := MirrorBlk.ofBlock b
  decide (b.length = 64 ∧ m.form ≤ 3) && zbits b 10 2 12 4 && zerosAt b 12 4 && zbits b 25 1 1 7 && zerosAt b 26 14 && zerosAt b 48 16
    && (m.form == 0 || m.form == 3 || (m.part == 0 && m.node == 0)) && (m.form != 0 || m.conv == 0)
    && (m.form == 1 || m.layer == 0) && (m.form == 2 || !m.force)

/-- A MIRROR result (R344). -/
def mirrorResult (id status buoy next mstate : Nat) : Bytes :=
  toLE 8 id ++ BitVec.ofNat 8 status :: zeros 7 ++ toLE 4 buoy ++ toLE 4 next ++ BitVec.ofNat 8 mstate :: zeros 7

/-- Completes a MIRROR that took no request entry. -/
def endMirror (src : Src) (m : MirrorBlk) (st : Status) (buoy next mstate : Nat) (s : State) : State :=
  deliver src 1 m.id st.code 0 (s.chargeSlot m.comp) (mirrorResult m.id st.code buoy next mstate)
    (recordDone m.id (s.masterOf src) st.code s)

/-- The checks of SET_PARTNER and RELEASE: ADMIN on the RES page, the composition, and an ACTIVE partition. -/
def onMirrorAdmin (src : Src) (m : MirrorBlk) (go : Nat → State → State) (s : State) : State :=
  if s.right (s.masterOf src) pgRes < 3 then finishDenied src m.id pgRes s
  else match s.compCheck m.comp m.epoch none false with
    | .stale => answerComp .staleEpoch src m.id m.comp none s
    | .pass _ =>
      let part := (s.srcPart src).getD m.part
      if s.partActive part then go part s else endMirror src m .invalidMode 0 0 0 s
    | _ => endMirror src m .invalidMode 0 0 0 s

/-- Whether a node may be a partition's mirror partner (R344): a valid node-table entry, an OPEN Keeper connection, and a last Beacon
that names another failure domain. -/
def State.partnerOk (s : State) (node : Nat) : Bool :=
  s.field pgPft 0x084 0 1 node == 1 && (s.keeperConn node).isSome && (match Map.find? s.res.peers node with
    | some p => p.fd != s.field pgPft 0x064 16 16
    | none => false)

/-- SET_PARTNER (R344, R351). -/
def setPartner (src : Src) (m : MirrorBlk) (s : State) : State :=
  onMirrorAdmin src m (fun part t =>
    if !t.partnerOk m.node then endMirror src m .invalidMode 0 0 0 t
    else
      let old := (t.part? part).bind (·.partner)
      if old = some m.node then endMirror src m .ok 0 0 0 t
      else
        let t1 := if old.isSome then sendRelease part (t.tenantOf part * 2 ^ 52) t else t
        let t2 := t1.updPart part fun p => { p with partner := some m.node }
        let t3 := (t2.retainedStreams part).foldl (fun u k => enterResync k.1 k.2 u) t2
        endMirror src m .ok 0 0 0 t3) s

/-- STATUS (R344): it needs READ. -/
def mirrorStatus (src : Src) (blk : Bytes) (m : MirrorBlk) (s : State) : State :=
  match s.authorise src (hTenant m.conv) 1 with
  | none => finishDenied src m.id (s.tenantTarget (hTenant m.conv)) s
  | some part => withComp opMirror src m.id m.comp m.epoch (some m.conv) (s.heldConv m.conv).isSome (some part) none blk (fun t =>
      match t.heldConv m.conv with
      | none => endMirror src m .absent 0 0 0 t
      | some c => if t.outside c m.layer then endMirror src m .invalidMode 0 0 0 t else match t.stream? m.conv m.layer with
        | some st => endMirror src m .ok st.buoy st.next st.mstate t
        | none => endMirror src m .ok 0 0 0 t) s

/-- The mirror copies of a conversation become its primary copies, writable, mirrored in turn to the partner of this node's
partition where one is set (R350); they belong to the slot of the PROMOTE (R367). -/
def promoteConv (conv slot : Nat) (s : State) : State :=
  match Map.find? s.convs conv with
  | none => s
  | some c =>
    let ms := match (s.part? c.part).bind (·.partner) with | some _ => 1 | none => 0
    let s1 : State := { writeMeta c.part 1 conv s with
      convs := Map.insert s.convs conv { c with primaryNode := none, slot },
      pages := Map.mapVals s.pages fun _ p => if p.conv = conv then { p with slot } else p,
      streams := Map.mapVals s.streams fun k x =>
        if k / 256 = conv then { x with mstate := if x.retained then ms else 0, buoy := 0, sent := 0, batchFrom := none } else x }
    s1

/-- PROMOTE (R344, R350, R365): at once where the primary's connection is not OPEN, else with FORCE a handover. -/
def promote (src : Src) (blk : Bytes) (m : MirrorBlk) (s : State) : State :=
  match s.authorise src (hTenant m.conv) 2 with
  | none => finishDenied src m.id (s.tenantTarget (hTenant m.conv)) s
  | some part => withComp opMirror src m.id m.comp m.epoch (some m.conv) (s.heldConv m.conv).isSome (some part) none blk (fun t =>
      match t.heldConv m.conv with
      | none => endMirror src m .absent 0 0 0 t
      | some c => match c.primaryNode with
        | none => endMirror src m .invalidMode 0 0 0 t
        | some node =>
          let slot := t.chargeSlot m.comp
          if (t.keeperConn node).isNone then endMirror src m .ok 0 0 0 (promoteConv m.conv slot t)
          else if !m.force then endMirror src m .busy 0 0 0 t
          else if !t.entryFree (some part) ∨ t.duplicate (t.masterOf src) m.id then endMirror src m .busy 0 0 0 t
          else
            let r := { Req.initial .promote m.id src (t.masterOf src) (some part) slot blk with
              conv := m.conv, deadline := some (t.time + 10000000) }
            sendNotice node 0 m.conv (addReq r t).2) s

/-- RELEASE at the partner (R344, R351). -/
def mirrorRelease (src : Src) (m : MirrorBlk) (s : State) : State :=
  onMirrorAdmin src m (fun part t =>
    if (t.keeperConn m.node).isSome then endMirror src m .busy 0 0 0 t
    else
      let mine := Map.keys (Map.filterKV t.convs fun h c => c.primaryNode == some m.node && c.part == part && !c.deleting
        && (m.conv == 0 || h == m.conv))
      if m.conv ≠ 0 ∧ mine = [] then endMirror src m .absent 0 0 0 t
      else endMirror src m .ok 0 0 0 (releaseCopies mine t)) s

/-- The decoder's MIRROR. -/
def runMirror (src : Src) (blk : Bytes) (s : State) : State :=
  let m := MirrorBlk.ofBlock blk
  if !MirrorBlk.check1 blk then endMirror src m .invalidMode 0 0 0 s
  else if m.form = 0 then setPartner src m s
  else if m.form = 1 then mirrorStatus src blk m s
  else if m.form = 2 then promote src blk m s
  else mirrorRelease src m s

/-- SET_PARTNER. -/
def execSetPartner (src : Src) (blk : Bytes) (s : State) : Host.Outcome State Fault Refusal :=
  ok (serving opMirror src blk (runMirror src blk) s)

/-- MIRROR_STATUS. -/
def execMirrorStatus (src : Src) (blk : Bytes) (s : State) : Host.Outcome State Fault Refusal :=
  ok (serving opMirror src blk (runMirror src blk) s)

/-- PROMOTE. -/
def execPromote (src : Src) (blk : Bytes) (s : State) : Host.Outcome State Fault Refusal :=
  ok (serving opMirror src blk (runMirror src blk) s)

/-- MIRROR_RELEASE. -/
def execMirrorRelease (src : Src) (blk : Bytes) (s : State) : Host.Outcome State Fault Refusal :=
  ok (serving opMirror src blk (runMirror src blk) s)

/-! ## Handover (R365) -/

/-- HANDOVER_FREEZE: at the primary, new requests for the conversation are held and every stream's batch is closed; the answer goes
once accepted requests have committed and the mirror has caught up. Only the partner of the conversation's partition is heard. -/
def handoverFreeze (peer conv : Nat) (s : State) : State :=
  match s.heldConv conv with
  | none => s
  | some c =>
    if c.readOnly ∨ c.freezer.isSome ∨ ((s.part? c.part).bind (·.partner)) ≠ some peer then s
    else
      let s1 : State := { s with convs := Map.insert s.convs conv { c with freezer := some peer, frozenAt := s.time, answered := false } }
      let layers := (s1.streams.filter fun kv => kv.1 / 256 == conv).map fun kv => kv.1 % 256
      answerFreezes (layers.foldl (fun t l => closeBatch conv l t) s1)

/-- HANDOVER_FREEZE. -/
def execHandoverFreeze (peer conv : Nat) (s : State) : Host.Outcome State Fault Refusal :=
  ok (whenReady (handoverFreeze peer conv) s)

/-- The handover whose PROMOTE is request `i`, still running. -/
def State.handover? (s : State) (i : Nat) : Option Req :=
  match Map.find? s.reqs i with
  | some r => if r.kind = .promote ∧ r.status.isNone then some r else none
  | none => none

/-- The partner commits the PROMOTE (R365 step 4). -/
def commitPromote (i : Nat) (r : Req) (s : State) : State :=
  commitReq i .ok (mirrorResult r.id 0 0 0 0) (promoteConv r.conv r.slot s)

/-- HANDOVER_ANSWER: the PROMOTE commits, and the primary is told. -/
def handoverAnswer (i : Nat) (s : State) : State :=
  match s.handover? i with
  | none => s
  | some r =>
    let node := (Map.find? s.convs r.conv).bind (·.primaryNode)
    let s1 := commitPromote i r s
    match node with
    | some n => sendNotice n 2 r.conv s1
    | none => s1

/-- HANDOVER_ANSWER. -/
def execHandoverAnswer (req : Nat) (s : State) : Host.Outcome State Fault Refusal := ok (whenReady (handoverAnswer req) s)

/-- The connection to a primary enters ERROR before its answer: the PROMOTE commits without the primary (R365). -/
def handoverBroken (node : Nat) (s : State) : State :=
  let mine := Map.filterKV s.reqs fun _ r => r.kind == .promote && r.status.isNone
    && (Map.find? s.convs r.conv).bind (·.primaryNode) == some node
  mine.foldl (fun t kv => commitPromote kv.1 kv.2 t) s

/-- Enters a stub (R364): a GRACE_MS of 0 makes none, and in a full table it replaces the oldest. -/
def addStub (conv node : Nat) (s : State) : State :=
  if s.field pgCmp 0x048 0 10 = 0 then s
  else
    let rest := s.cmp.stubs.filter fun x => x.conv != conv
    let full := decide (65536 ≤ rest.length)
    let kept := if full then rest.drop 1 else rest
    let s1 : State := { s with cmp := { s.cmp with stubs := kept ++ [{ conv, node, at_ := s.time }] } }
    if full then setCause pgCmp 4 s1 else s1

/-- HANDOVER_COMMIT: the primary turns the conversation into a stub, releases its pages and forwards the held requests (R365 step
5). -/
def handoverCommit (conv : Nat) (s : State) : State :=
  match Map.find? s.convs conv with
  | none => s
  | some c => match c.freezer with
    | none => s
    | some node =>
      if !c.answered then s
      else
        let s1 : State := { s with
          convs := Map.insert s.convs conv { c with deleting := true, freezer := none, held := [] },
          pages := Map.mapVals s.pages fun _ p => if p.conv = conv then { p with sealing := false } else p }
        sweep (c.held.foldl (fun t i => forwardNow node i t) (addStub conv node s1))

/-- HANDOVER_COMMIT. -/
def execHandoverCommit (conv : Nat) (s : State) : Host.Outcome State Fault Refusal := ok (whenReady (handoverCommit conv) s)

/-- STUB_EXPIRY: a stub's GRACE_MS has ended (R364). -/
def stubExpiry (conv : Nat) (s : State) : State :=
  let grace := 1000000 * s.field pgCmp 0x048 0 10
  { s with cmp := { s.cmp with stubs := s.cmp.stubs.filter fun x => !(x.conv == conv && decide (x.at_ + grace ≤ s.time)) } }

/-- STUB_EXPIRY. -/
def execStubExpiry (conv : Nat) (s : State) : Host.Outcome State Fault Refusal := ok (whenReady (stubExpiry conv) s)

/-! ## The result of a forwarded request (R363) -/

/-- The destination's result for a forwarded request is wholly placed: it is returned as this node's own. -/
def forwardDone (idx : Nat) (s : State) : State :=
  let mine (r : Req) : Bool := r.kind == .forward && r.contribs.any fun c => c.rkey == idx && c.state == 1
  match List.find? (fun kv => mine kv.2) s.reqs, Map.find? s.pft.regions idx with
  | some (i, r), some g =>
    let n := match g.mem.getLast? with | some kv => kv.1 + 1 | none => 0
    let b := g.bytes 0 n
    meter r.slot 4 b.length (commitReq i (Status.ofCode (byteAt b 8)) b (deregister idx s))
  | _, _ => s

end Sys2Proof.Machine
end

