-- ==== Sys2Proof/Machine/Roles.lean ====
section
/-! DEFINITION. ROLE and the role change (R356 to R359), the composition slots (R360, R367) and the metering sample (R366). -/
namespace Sys2Proof.Machine

/-! ## ROLE -/

/-- Opcode of ROLE (Table 12-3). -/
def opRole : Nat := 0x0D

/-- A ROLE block's length, reserved fields and grace (R357). -/
def roleCheck (b : Bytes) : Bool :=
  decide (b.length = 64 ∧ bitsOf (byteAt b 9) 0 3 ≤ 4) && zbits b 8 1 2 6 && zbits b 9 1 3 5 && zerosAt b 10 54

/-- Whether a node in a role makes grants, or merges (Table 15-1). -/
def lends (role : Nat) : Bool := role == 2 || role == 3
def merges (role : Nat) : Bool := role == 1 || role == 3

/-- ROLE (R357, steps 1 and 2 of Table 15-2). -/
def runRole (src : Src) (blk : Bytes) (s : State) : State :=
  let id := blkId blk
  let new := bitsOf (byteAt blk 8) 0 2
  let grace := if byteAt blk 9 = 0 then 4 else byteAt blk 9
  let host : Bool := match src with | .host _ _ _ _ _ _ => true | _ => false
  if !host ∨ !roleCheck blk then finish src id .invalidMode s
  else if s.secondary src then finish src id .denied s
  else if s.right (s.masterOf src) pgCmp < 3 then finishDenied src id pgCmp s
  else if s.cmp.change.isSome then finish src id .busy s
  else if new = s.role then finish src id .ok s
  else
    let old := s.role
    let s1 := logCommand (s.masterOf src) opRole 0 old new s
    let r := { Req.initial .role id src (s.masterOf src) (s.srcPart src) 16 blk with entryUsed := false }
    let (i, s2) := addReq r s1
    let ms := Map.keys (Map.filterKV s2.reqs fun _ x => x.kind == .merge && x.status.isNone)
    let leaves := lends old && !lends new
    let c : RoleChange := { old, new, req := i, merges := if merges old && !merges new then ms else [], graceMs := grace,
                            start := s2.time, reclaims := leaves }
    let s3 : State := { s2.setReg pgCmp 0x040 (new + 4 + 16 * new) with cmp := { s2.cmp with change := some c } }
    if leaves then startReclaim (Map.keys s3.tier.grantsOut) grace s3 else s3

/-- ROLE. -/
def execRole (src : Src) (blk : Bytes) (s : State) : Host.Outcome State Fault Refusal :=
  ok (serving opRole src blk (runRole src blk) s)

/-- ROLE_GRACE_EXPIRY: step 4 of Table 15-2, GRACE_MS after step 1. -/
def roleGraceExpiry (s : State) : State :=
  match s.cmp.change with
  | none => s
  | some c =>
    if !c.reclaims ∨ s.time < c.start + 1000000 * c.graceMs then s
    else
      let s1 := (Map.keys (Map.filterKV s.tier.grantsOut fun _ g => g.noPlace)).foldl (fun t g => dropGrant g t) s
      { s1 with cmp := { s1.cmp with change := some { c with reclaims := false } } }

/-- ROLE_GRACE_EXPIRY. -/
def execRoleGraceExpiry (s : State) : Host.Outcome State Fault Refusal := ok (whenReady roleGraceExpiry s)

/-- Cuts off a MERGE at step 5: DEADLINE, its contributions left to their own deadlines (R358). -/
def cutMerge (i : Nat) (s : State) : State :=
  match Map.find? s.reqs i with
  | some r => commitReq i .deadline (mergeRefusal r.blk .deadline noneDecided noneDecided) s
  | none => s

/-- ROLE_CHANGE_FINISH: steps 5 to 7 of Table 15-2, once step 4 is over. -/
def roleChangeFinish (s : State) : State :=
  match s.cmp.change with
  | none => s
  | some c =>
    if c.reclaims then s
    else
      let s1 := c.merges.foldl (fun t i => cutMerge i t) s
      let s2 : State := { s1.setReg pgCmp 0x040 c.new with cmp := { s1.cmp with change := none } }
      let s3 := raise (event 0 8 0x0810 pgCmp c.old c.new) (setCause pgCmp 0 s2)
      commitPlain c.req .ok s3

/-- ROLE_CHANGE_FINISH. -/
def execRoleChangeFinish (s : State) : Host.Outcome State Fault Refusal := ok (whenReady roleChangeFinish s)

/-! ## Slots (R360, R366, R367) -/

/-- Adds to a slot's TIME the time for which it has been VALID since it was last brought up to date. -/
def flushTime (slot : Nat) (s : State) : State :=
  match Map.find? s.cmp.since slot with
  | none => s
  | some t0 =>
    meter slot 0 (s.time - t0) { s with cmp := { s.cmp with since := Map.insert s.cmp.since slot s.time } }

/-- VALID clears: the slot's objects are charged to slot 16 from then on (R367). -/
def clearSlot (slot : Nat) (s0 : State) : State :=
  let s := flushTime slot s0
  let home (k : Nat) : Nat := if k = slot then 16 else k
  { s with
    cmp := { s.cmp with since := Map.erase s.cmp.since slot },
    convs := Map.mapVals s.convs fun _ c => { c with slot := home c.slot },
    pages := Map.mapVals s.pages fun _ p => { p with slot := home p.slot },
    masks := Map.mapVals s.masks fun _ m => { m with slot := home m.slot },
    tier := { s.tier with grantsOut := Map.mapVals s.tier.grantsOut fun _ g => { g with slot := home g.slot } } }

/-- VALID sets: the slot's counters and its CMP_MSAT bits clear (R367). -/
def openSlot (slot : Nat) (s : State) : State :=
  let zero (t : State) (k : Nat) : State := { t with cnt := Map.erase t.cnt (regKey pgCmp (0x064 + 8 * k) slot) }
  let s1 := (List.range 5).foldl zero (s.setReg pgCmp 0x060 0 slot)
  { s1 with cmp := { s1.cmp with since := Map.insert s1.cmp.since slot s1.time,
                                 rem := Map.erase (Map.erase s1.cmp.rem (2 * slot)) (2 * slot + 1) } }

/-- Bytes of HBM that a slot's objects hold at this instant (Table 15-5). -/
def State.slotHbm (s : State) (slot : Nat) : Nat :=
  4096 * s.pages.foldl (fun n kv => if kv.2.slot = slot then n + kv.2.hbmBlocks else n) 0
    + 4096 * s.masks.foldl (fun n kv => if kv.2.slot = slot then n + maskBlocks kv.2.len else n) 0
    + 2 ^ 20 * s.tier.grantsOut.foldl (fun n kv => if kv.2.slot = slot then n + kv.2.mib else n) 0

/-- Bytes of NAND forms of a slot's pages, shadows included. -/
def State.slotNand (s : State) (slot : Nat) : Nat :=
  let one (p : Page) : Nat := nandBytes (s.pageGeo p) p.fmt * ((if p.loc.isSome then 1 else 0) + (if p.shadow.isSome then 1 else 0))
  s.pages.foldl (fun n kv => if kv.2.slot = slot then n + one kv.2 else n) 0

/-- Adds one sample of a byte-second counter: bytes divided by 1,000, the remainder carried (R366). -/
def sample (slot kind bytes : Nat) (s : State) : State :=
  let k := 2 * slot + (kind - 1)
  let total := bytes + Map.getD s.cmp.rem k 0
  meter slot kind (total / 1000) { s with cmp := { s.cmp with rem := Map.put s.cmp.rem k (total % 1000) 0 } }

/-- The sample of every slot. -/
def sampleNow (s : State) : State :=
  (List.range 17).foldl (fun t k => flushTime k (sample k 2 (s.slotNand k) (sample k 1 (s.slotHbm k) t)))
    { s with cmp := { s.cmp with sampledAt := s.time } }

/-- METERING_SAMPLE: a sample is taken every 1 ms, so not before a millisecond has passed since the last (R366). -/
def meteringSample (s : State) : State := if s.time < s.cmp.sampledAt + 1000000 then s else sampleNow s

/-- METERING_SAMPLE. -/
def execMeteringSample (s : State) : Host.Outcome State Fault Refusal := ok (whenReady meteringSample s)

end Sys2Proof.Machine
end

