-- ==== Sys2Proof/Machine/Traffic.lean ====
section
/-! DEFINITION. The traffic controller (R263 to R274): shapers, deficit round-robin, policers, gate lists and guard bands, and the
start of a frame on a port. -/
namespace Sys2Proof.Machine

/-! ## Ports -/

/-- Lanes a port has in the mode in force, as a mask of SerDes lanes (Table 10-1). -/
def State.modeLanes (s : State) (port : Nat) : Nat :=
  let n := if s.pft.portMode = 0 then 8 else if s.pft.portMode = 1 then 4 else 2
  (2 ^ n - 1) * 2 ^ (n * port)

/-- Lanes a port runs on (R238). -/
def State.portLanes (s : State) (port : Nat) : Nat := Map.getD s.pft.degraded port (s.modeLanes port)

/-- Lanes set in a mask of the 16 SerDes lanes. -/
def lanesIn (mask : Nat) : Nat := ((List.range 16).filter fun k => bitOf mask k).length

/-- A port's rate in Gb/s (Table 10-1): 100 for each lane. -/
def State.portRate (s : State) (port : Nat) : Nat := 100 * lanesIn (s.portLanes port)

/-- The largest frame of a port (R273). -/
def State.largestFrame (s : State) (port : Nat) : Nat := 106 + s.mtu + (if s.tagged port then 4 else 0)

/-- The guard band of a port in ns, a multiple of 8 (R273). -/
def State.guardBand (s : State) (port : Nat) : Nat :=
  let bits := ((s.largestFrame port : Int) + s.overhead port).toNat * 8
  roundUp (ceilDiv bits (max 1 (s.portRate port))) 8

/-- The counted length of a frame on a port (R266). -/
def State.counted (s : State) (port len : Nat) : Int := (len : Int) + s.overhead port

/-! ## Token buckets (R267) -/

/-- Tokens stand in units of 1/8000 byte, so a rate in Mb/s is a gain per ns. A bucket that has not been used is full. -/
def Bucket.now (b : Option Bucket) (rate kib now : Nat) : Int :=
  let depth : Int := (kib * 1024 * 8000 : Nat)
  match b with
  | some x => min depth (x.tokens + (rate * (now - x.last) : Nat))
  | none => depth

/-- The class shaper of a port: rate, depth and bucket. -/
def State.classTokens (s : State) (port cls : Nat) : Nat × Int :=
  let k := port * 8 + cls
  let r := s.field pgTc 0x05C 0 20 k
  (r, Bucket.now (Map.find? s.tc.classBuckets k) r (s.field pgTc 0x060 0 16 k) s.time)

/-- The shaper of an entity on a port. -/
def State.entTokens (s : State) (port ent : Nat) : Nat × Int :=
  let k := port * 512 + ent
  let r := s.field pgTc 0x06C 0 20 k
  (r, Bucket.now (Map.find? s.tc.entBuckets k) r (s.field pgTc 0x070 0 16 k) s.time)

/-- A shaped queue is eligible while its tokens are above zero; a RATE of 0 shapes nothing (R267). -/
def eligible (x : Nat × Int) : Bool := x.1 == 0 || decide (0 < x.2)

/-- The buckets of a class's shaper, an entity's shaper and a policer up to now, as a write to their rate or depth at an offset of the TC
page finds them: tokens gained so far were gained at the rate so far (R267). -/
def settleTokens (off win : Nat) (s : State) : State :=
  let upTo (m : Map Bucket) (rate depth : Nat) : Map Bucket := match Map.find? m win with
    | some b => Map.insert m win ⟨Bucket.now (some b) rate depth s.time, s.time⟩
    | none => m
  if off = 0x05C ∨ off = 0x060 then
    { s with tc := { s.tc with classBuckets := upTo s.tc.classBuckets (s.field pgTc 0x05C 0 20 win) (s.field pgTc 0x060 0 16 win) } }
  else if off = 0x06C ∨ off = 0x070 then
    { s with tc := { s.tc with entBuckets := upTo s.tc.entBuckets (s.field pgTc 0x06C 0 20 win) (s.field pgTc 0x070 0 16 win) } }
  else if off = 0x074 ∨ off = 0x078 then
    { s with tc := { s.tc with policers := upTo s.tc.policers (s.field pgTc 0x074 0 20 win) (s.field pgTc 0x078 0 16 win) } }
  else s

/-- Takes a frame's counted length from the buckets it passes through. -/
def takeTokens (port cls : Nat) (ent : Nat) (n : Int) (s : State) : State :=
  let c := s.classTokens port cls
  let e := s.entTokens port ent
  let cb := if c.1 = 0 then s.tc.classBuckets else Map.insert s.tc.classBuckets (port * 8 + cls) ⟨c.2 - n * 8000, s.time⟩
  let eb := if e.1 = 0 then s.tc.entBuckets else Map.insert s.tc.entBuckets (port * 512 + ent) ⟨e.2 - n * 8000, s.time⟩
  { s with tc := { s.tc with classBuckets := cb, entBuckets := eb } }

/-- The policer of a partition (R270): none where the packet is dropped. -/
def police (port part len : Nat) (s : State) : Option State :=
  let r := s.field pgTc 0x074 0 20 part
  if r = 0 then some s
  else
    let n := s.counted port len * 8000
    let t := Bucket.now (Map.find? s.tc.policers part) r (s.field pgTc 0x078 0 16 part) s.time
    if n ≤ t then some { s with tc := { s.tc with policers := Map.insert s.tc.policers part ⟨t - n, s.time⟩ } } else none

/-- Counts a policer's drop. -/
def policeDrop (part : Nat) (s : State) : State := setCause pgTc 2 (s.bump pgTc 0x0A0 1 part)

/-! ## Gates (R271 to R273) -/

/-- A port's gate lists; without any, every gate is open. -/
def Gate.initial : Gate := { op := [], cur := 0, curStart := 0, pend := none }
def State.gate (s : State) (port : Nat) : Gate := Map.getD s.tc.gates port .initial

/-- Replaces a port's gate lists. -/
def State.setGate (s : State) (port : Nat) (g : Gate) : State := { s with tc := { s.tc with gates := Map.insert s.tc.gates port g } }

/-- A list's cycle in units of 8 ns. -/
def cycleOf (l : List (Nat × Nat)) : Nat := l.foldl (fun n e => n + e.1) 0

/-- The gate bits in force. -/
def Gate.bits (g : Gate) : Nat := match g.op[g.cur]? with | some e => e.2 | none => 0xFF

/-- ns from the start of the entry in force to the instant at which a class's open gate closes; none where it never does. -/
def Gate.closesIn (g : Gate) (cls : Nat) : Option Nat :=
  let rot := g.op.drop g.cur ++ g.op.take g.cur
  let run := rot.takeWhile fun e => bitOf e.2 cls
  if run.length = rot.length then none else some (8 * cycleOf run)

/-- Whether a port may start a frame of a class now: its gate is open and its guard band has not begun (R273). -/
def State.mayStart (s : State) (port cls : Nat) : Bool :=
  let g := s.gate port
  bitOf g.bits cls && (match g.closesIn cls with
    | some n => decide (s.time + s.guardBand port < g.curStart + n)
    | none => true)

/-- The pending list of a port as its registers hold it. -/
def State.pendingList (s : State) (port len : Nat) : List (Nat × Nat) :=
  (List.range len).map fun k => (s.field pgTc 0x090 0 27 (port * 256 + k), s.field pgTc 0x094 0 8 (port * 256 + k))

/-- COMMIT (R271): the status, and the lists. -/
def gateCommit (port len : Nat) (s : State) : State :=
  let g := s.gate port
  let l := s.pendingList port len
  let start := s.reg pgTc 0x084 port + 2 ^ 32 * s.reg pgTc 0x088 port
  let st : Status := if g.pend.isSome then .busy
    else if 256 < len ∨ (l.any fun e => e.1 == 0 || decide (125000000 < e.1)) ∨ 125000000 < cycleOf l then .invalidMode else .ok
  let s1 := s.setField pgTc 0x080 24 8 st.code port
  if st = .ok then s1.setGate port { g with pend := some (max start s.time, l) } else setCause pgTc 1 s1

/-- The instant at which the pending list becomes operational (R271). -/
def Gate.switchAt (g : Gate) (start : Nat) : Nat :=
  if g.op = [] then start
  else
    let cyc := 8 * cycleOf g.op
    let begins := g.curStart - 8 * cycleOf (g.op.take g.cur)
    let k := ceilDiv (start - begins) (max 1 cyc)
    begins + max 1 k * cyc

/-- GATE_SWITCH: at the switch instant the pending list becomes operational. -/
def gateSwitch (port : Nat) (s : State) : State :=
  let g := s.gate port
  match g.pend with
  | none => s
  | some (start, l) =>
    let at_ := g.switchAt start
    if s.time < at_ then s
    else setCause pgTc 0 (s.setGate port { op := l, cur := 0, curStart := at_, pend := none })

/-- GATE_SWITCH. -/
def execGateSwitch (port : Nat) (s : State) : Host.Outcome State Fault Refusal := ok (if s.phase = .ready then gateSwitch port s else s)

/-- GATE_ENTRY_ADVANCE: the entry's interval ends and the next comes into force; the list repeats. -/
def gateAdvance (port : Nat) (s : State) : State :=
  let g := s.gate port
  match g.op[g.cur]? with
  | none => s
  | some e =>
    if s.time < g.curStart + 8 * e.1 then s
    else s.setGate port { g with cur := (g.cur + 1) % g.op.length, curStart := g.curStart + 8 * e.1 }

/-- GATE_ENTRY_ADVANCE. -/
def execGateEntryAdvance (port : Nat) (s : State) : Host.Outcome State Fault Refusal :=
  ok (if s.phase = .ready then gateAdvance port s else s)

/-! ## The choice of a frame (R268, R269) -/

/-- Frames waiting in a class of a port. -/
def State.waitingIn (s : State) (port cls : Nat) : List Frame := Map.getD s.tc.queues (port * 8 + cls) []

/-- Entities of a class of a port that have a frame and an eligible shaper. -/
def State.readyEnts (s : State) (port cls : Nat) : List Nat :=
  ((s.waitingIn port cls).filterMap (·.entity)).eraseDups.filter fun e => eligible (s.entTokens port e)

/-- A deficit's key. -/
def deficitKey (port cls ent : Nat) : Nat := (port * 8 + cls) * 512 + ent

/-- The next entity in cyclic order of number after `cur` (log entry 35). -/
def nextEnt (es : List Nat) (cur : Nat) : Option Nat :=
  let best (p : Nat → Bool) : Option Nat := (es.filter p).foldl (fun b e => match b with
    | some x => some (min x e)
    | none => some e) none
  match best fun e => decide (cur < e) with
  | some e => some e
  | none => best fun _ => true

/-- Whether an entity's head frame in a class fits a deficit (R269). -/
def State.headFits (s : State) (port cls ent deficit : Nat) : Bool :=
  match (s.waitingIn port cls).find? fun f => f.entity == some ent with
  | some f => decide (s.counted port f.len ≤ Int.ofNat deficit)
  | none => false

/-- Deficit round-robin (R269): the entity whose turn it is sends while its head frame fits its deficit; else the turn passes, and
the next eligible entity adds its quantum. `fuel` bounds the turns. -/
def drr (port cls : Nat) : Nat → State → Option (Nat × State)
  | 0, _ => none
  | fuel + 1, s =>
    let es := s.readyEnts port cls
    let cur : Nat := Map.getD s.tc.turn (port * 8 + cls) 511
    let d (e : Nat) : Nat := Map.getD s.tc.deficits (deficitKey port cls e) 0
    if es.contains cur && s.headFits port cls cur (d cur) then some (cur, s)
    else match nextEnt es cur with
      | none => none
      | some e =>
        let v := d e + 1024 * s.field pgTc 0x068 0 8 e
        drr port cls fuel { s with tc := { s.tc with
          turn := Map.insert s.tc.turn (port * 8 + cls) e,
          deficits := Map.insert s.tc.deficits (deficitKey port cls e) v } }

/-- Removes the first frame that satisfies a test. -/
def takeFirst (p : Frame → Bool) : List Frame → Option (Frame × List Frame)
  | [] => none
  | f :: r => if p f then some (f, r) else (takeFirst p r).map fun x => (x.1, f :: x.2)

/-- Turns that always reach a frame: each of 257 entities gains at least 1,024 bytes in every round. -/
def drrFuel : Nat := 257 * 16

/-- A control frame that may be sent: while PFT_CTRL.ENABLE is 0, no PFT packet is, and those that wait are held. -/
def State.controlNow (s : State) (f : Frame) : Bool := f.entity.isNone && (s.pftEnabled || f.what != 0)

/-- The frame a port starts in a class, the queue without it, and the state after the round-robin (R268 steps 3 and 4). -/
def classFrame (port cls : Nat) (s : State) : Option (Frame × List Frame × State) :=
  match takeFirst s.controlNow (s.waitingIn port cls) with
  | some (f, r) => some (f, r, s)
  | none =>
    if s.pftEnabled ∧ eligible (s.classTokens port cls) then
      (drr port cls drrFuel s).bind fun x =>
        (takeFirst (fun f => f.entity == some x.1) (s.waitingIn port cls)).map fun y => (y.1, y.2, x.2)
    else none

/-- The DSCP of a class as the IPv6 traffic-class octet carries it, ECN 00 (R264). -/
def State.trafficClass (s : State) (cls : Nat) : Nat := 4 * bitsOf (s.reg pgTc (0x048 + cls / 4 * 4)) (8 * (cls % 4)) 6

/-- Puts a frame on the wire: its bytes leave the port, and ETH_TXF and ETH_TXO count (R262). -/
def emit (port cls : Nat) (f : Frame) (s : State) : State :=
  let src := beAt f.hdr 4 2
  let path := byteAt f.hdr 8 % 16
  let s1 := if f.what = 0 then
      s.send (.packet port (s.outerOf port (s.priorityOf f.kind) (s.trafficClass cls) f.addr (3 * 16384 + src % 1024 * 16 + path)
        (src * 16 + path) (f.hdr ++ f.payload)) f.hdr f.payload)
    else if f.what = 3 then s.send (.echoReply port f.hdr f.addr f.payload)
    else s.send (.neighbor port (decide (f.what = 2)) f.payload f.addr)
  countUp (pgEth port) 0x070 f.len (countUp (pgEth port) 0x060 1 (s1.send (.frame port cls f.entity f.len)))

/-- Starts the frame `f` of a class: it leaves the queue and its buckets, and an emptied entity loses its deficit. -/
def startFrame (port cls : Nat) (f : Frame) (rest : List Frame) (s : State) : State :=
  let s1 : State := { s with tc := { s.tc with queues := Map.put s.tc.queues (port * 8 + cls) rest [] } }
  let s2 := match f.entity with
    | none => s1
    | some e =>
      let n := s.counted port f.len
      let left := rest.any fun x => x.entity == some e
      let d := Map.getD s1.tc.deficits (deficitKey port cls e) 0 - n.toNat
      takeTokens port cls e n { s1 with tc := { s1.tc with
        deficits := Map.put s1.tc.deficits (deficitKey port cls e) (if left then d else 0) 0 } }
  emit port cls f s2

/-- EGRESS_SELECT: a port that is up chooses a frame and starts it (R268). A PFT packet waits until the next hop is resolved, and the
port then sends Neighbor Solicitation (R239). -/
def egressSelect (port : Nat) (s : State) : State :=
  if !s.upPorts.contains port then s
  else
    let pick (cls : Nat) : Option (Nat × Frame × List Frame × State) :=
      if s.mayStart port cls then (classFrame port cls s).map fun x => (cls, x) else none
    match [7, 6, 5, 4, 3, 2, 1, 0].findSome? pick with
    | none => s
    | some (cls, f, rest, t) =>
      if f.what = 0 ∧ s.nextMac port = none then s.send (.neighbor port false f.addr f.addr)
      else startFrame port cls f rest t

/-- EGRESS_SELECT. -/
def execEgressSelect (port : Nat) (s : State) : Host.Outcome State Fault Refusal :=
  ok (if s.phase = .ready ∧ !bitOf (s.reg pgRst 0x048) 18 ∧ !s.boot.resetting.contains 18 then egressSelect port s else s)

end Sys2Proof.Machine
end

