-- ==== Sys2Proof/Machine/Conn.lean ====
section
/-! DEFINITION. Connections (R243 to R250): opening, closing and failing, the answers to CONNECT, ACCEPT and CLOSE, acknowledgements
and retransmission. -/
namespace Sys2Proof.Machine

/-! ## Packets that are not sequenced -/

/-- Sends a control packet (PSN 0, kind 7) to an address; `flags` are its flag bits. -/
def sendCtrl (addr : Bytes) (typ dst src msg : Nat) (rest : Bytes) (s : State) (flags : Nat := 0) : State :=
  sendPacket addr 7 0 0 (pftHeader typ flags dst src s.nodeId 0 0 msg (rest ++ zeros 24)) [] s

/-- Bytes 16 on of a CONNECT or ACCEPT (Table 10-3). -/
def openRest (keeper : Bool) (tenant psn : Nat) : Bytes :=
  (if keeper then 1 else 0) :: 0 :: toBE 2 tenant ++ toBE 4 psn

/-- Bytes 16 on of an ACK (Table 10-3). -/
def ackRest (next sack apsn code amsg : Nat) : Bytes :=
  toBE 4 next ++ toBE 8 sack ++ toBE 4 (apsn + code * 2 ^ 24) ++ toBE 4 amsg

/-- The tenant a connection speaks for: 0 on a Keeper connection. -/
def State.connTenant (s : State) (c : Conn) : Nat := if c.keeper then 0 else s.tenantOf c.part

/-- Sends CONNECT for a connection that is CONNECTING; RETX says that it is sent again. -/
def sendConnect (i : Nat) (again : Bool) (s : State) : State :=
  match Map.find? s.pft.conns i with
  | some c => sendCtrl c.addr 4 0 i 0 (openRest c.keeper (s.connTenant c) c.oldest) s (if again then 8 else 0)
  | none => s

/-! ## States -/

/-- Connections a node holds (R243). -/
def connTable : Nat := 65536

/-- The lowest index that may be used: never used, or CLOSED for 10 ms (R246). -/
def State.freeConn (s : State) : Option Nat :=
  (List.range (min connTable (s.pft.conns.length + 1))).find? fun i => match Map.find? s.pft.conns i with
    | none => true
    | some c => c.state == .closed && decide (c.closedAt + 10000000 ≤ s.time)

/-- A connection as it is made at time `now`, with its first PSN drawn at random. -/
def newConn (st : CState) (keeper : Bool) (node : Nat) (addr : Bytes) (part peer rxNext psn rto now : Nat) : Conn :=
  { state := st, keeper, node, addr, part, peer, closedAt := 0, nextPsn := psn, oldest := psn, nextMsg := 0, path := 0, pkts := [],
    msgs := [], waitq := [], txTotal := 0, errSince := 0, rto, expiries := 0, timer := now, rxNext, rxGot := [], rxSizes := [], inOrder := 0,
    refusedSince := false, unacked := 0, firstAt := 0, lastRx := 0, lastMsg := 0, sack := 0 }

/-- Makes a connection to a node, at its address in the node table or else at `src`; none when the table is full. -/
def makeConn (st : CState) (keeper : Bool) (node : Nat) (src : Bytes) (part peer rxNext : Nat) (s : State) : Option (Nat × State) :=
  s.freeConn.map fun i =>
    let (n, s1) := s.draw
    (i, s1.setConn i (newConn st keeper node (s.reach node src) part peer rxNext (Config.firstPsn n % 2 ^ 24) (s.field pgPft 0x048 0 9) s.time))

/-- The mark of the region a partner takes mirror traffic in, one for each Keeper connection (R253, log entry 27). -/
def mirrorMark : Nat := 1

/-- Bytes of that region: a batch of 1 MiB and a page with its sketch behind the record. -/
def mirrorRegion : Nat := 4 * 2 ^ 20

/-- A connection has become OPEN: a Keeper connection gets its mirror target, and what waited for it goes on (R351, R401, R204). -/
def connOpened (i : Nat) (s : State) : State :=
  match Map.find? s.pft.conns i with
  | none => s
  | some c =>
    if c.keeper then
      let s1 := match register 2 0 mirrorRegion keeperOwner i mirrorMark s with | some (_, t) => t | none => s
      restoreAgain c.node (mirrorBack c.node s1)
    else s

/-- The status of a message by the worst CODE returned for it (R257). -/
def codeStatus (code : Nat) : Status :=
  if code = 0 then .ok else if code = 1 then .busy else if code = 2 then .denied else .invalidMode

/-- The completion of a message at its sender (R257): of a SEND or a FIN WRITE that a host sent. -/
def completeMsg (m : TxMsg) (st : Status) (s : State) : State :=
  if m.qp = 65535 then s
  else
    let s1 := postCqe m.port m.qp { tag := 0, status := st.code, trunc := false, kind := 0, cid := m.cid, bytes := 0, aux := 0 } s
    let q := s1.queue m.port m.qp
    settleDisable m.port m.qp (s1.setQueue m.port m.qp { q with inflight := q.inflight.erase m.cid })

/-- What the end of a Keeper's own message means: a mirrored record (R345), or a page's loan (R194). -/
def keeperAcked (m : TxMsg) (s : State) : State :=
  if m.stream ≠ 0 then answerFreezes (mirrorAcked m s)
  else if m.page ≠ 0 then
    if m.err = 0 then
      s.updPage m.page fun p => if p.state = .migrating ∧ p.dest = 2 then { p with durable := true } else p
    else migrationFail m.page s
  else s

/-- Returns the buffers of partly received SENDs of a connection, and of commands not yet done, with DEADLINE (R245, R292). -/
def returnPartials (i : Nat) (s : State) : State :=
  let mine := s.pft.sends.filter fun p => p.conn == i
  mine.foldl (fun t p =>
    let t1 : State := { t with pft := { t.pft with sends := t.pft.sends.erase p } }
    match Map.find? t1.srqs p.part with
    | some q =>
      if p.drop ≠ 0 then t1
      else postCqe q.port (bitsOf (t1.reg (pgHq q.port 0) 0x0AC p.part) 16 12)
        { tag := p.buf.tag + i * 2 ^ 32, status := Status.deadline.code, trunc := false, kind := 2, cid := 0, bytes := 0, aux := 0 } t1
    | none => t1) s

/-- Contributions under way that satisfy a test are lost: they end their MERGE (R157), and forwarded requests end with DEADLINE. -/
def loseWhere (hit : Contribution → Bool) (s : State) : State :=
  let lost (r : Req) : Option Nat := (List.range r.contribs.length).find? fun k => match r.contribs[k]? with
    | some c => c.state == 1 && c.rkey != 0 && hit c
    | none => false
  let mine := Map.filterKV s.reqs fun _ r => r.status.isNone && (lost r).isSome
  mine.foldl (fun t kv => match lost kv.2 with
    | some k =>
      let u := match kv.2.contribs[k]? with | some c => deregister c.rkey t | none => t
      if kv.2.kind = .merge then loseContribution kv.1 k u else if kv.2.kind = .forward then commitPlain kv.1 .deadline u else t
    | none => t) s

/-- A connection enters ERROR (R245). `cause`: 1 timeouts, 2 NOCONN, 3 reset; 0 where the spec names none. -/
def connError (i cause : Nat) (s : State) : State :=
  match Map.find? s.pft.conns i with
  | none => s
  | some c =>
    if c.state = .closed ∨ c.state = .error then s
    else
      let s1 := s.setConn i { c with state := .error, pkts := [], waitq := [], msgs := [], unacked := 0 }
      let s2 := setCause pgPft 1 (s1.bump pgPft 0x0D8)
      let s3 := raise (eventFor (if c.keeper then none else some c.part) 4 1 0x0110 pgPft i (c.node + cause * 65536)) s2
      let s4 := c.msgs.foldl (fun t m =>
        let t1 := if !m.isWrite ∨ m.fin then completeMsg m .deadline t else t
        if m.page ≠ 0 ∧ m.stream = 0 then migrationFail m.page t1 else t1) s3
      let s5 : State := { s4 with pft := { s4.pft with finHold := s4.pft.finHold.filter fun f => f.conn != i } }
      let s6 := dropLate i (loseWhere (fun k => k.link == i) (returnPartials i s5))
      if c.keeper ∧ c.state ≠ .connecting then
        let dead := Map.keys (Map.filterKV s6.pft.regions fun _ r => r.owner == keeperOwner && r.loc == 2 && r.finQp == mirrorMark && r.fn == i)
        handoverBroken c.node (lenderLost c.node (fetchesLost i (mirrorLost c.node (dead.foldl (fun t k => deregister k t) s6))))
      else s6

/-- A CLOSING connection with every message acknowledged sends CLOSE and is CLOSED (Table 10-4). -/
def settleClosing (i : Nat) (s : State) : State :=
  match Map.find? s.pft.conns i with
  | none => s
  | some c =>
    if c.state = .closing ∧ c.pkts = [] ∧ c.waitq = [] then
      (sendCtrl c.addr 6 c.peer i 0 [] s).setConn i { c with state := .closed, closedAt := s.time, msgs := [] }
    else s

/-! ## Commands (PFT_CO_CMD, R243) -/

/-- Sets a master's PFT_CO_CMD STATUS. -/
def coStatus (master : Nat) (st : Status) (s : State) : State := s.setSel master pgPft 0x090 (st.code * 65536)

/-- PFT_CO_CMD 1: opens a partition connection as PFT_CO_ARG says. -/
def openConnection (master : Nat) (s : State) : State :=
  let arg := s.sel master pgPft 0x088
  let node := bitsOf arg 0 12
  let part := bitsOf arg 12 8
  if s.right master (partTarget part) < 2 then coStatus master .denied (deny master (partTarget part) s)
  else if !s.partActive part ∨ s.field pgPft 0x084 0 1 node = 0 then coStatus master .invalidMode s
  else match makeConn .connecting false node [] part 0 0 s with
    | none => coStatus master .full s
    | some (i, s1) => coStatus master .ok (sendConnect i false (s1.setSel master pgPft 0x08C i))

/-- PFT_CO_CMD 2: closes the connection PFT_CO_CONN names. -/
def closeConnection (master : Nat) (s : State) : State :=
  let i := s.sel master pgPft 0x08C % 65536
  match Map.find? s.pft.conns i with
  | none => coStatus master .absent s
  | some c =>
    let target := if c.keeper then pgPft else partTarget c.part
    let need := if c.keeper then 3 else 2
    if s.right master target < need then coStatus master .denied (deny master target s)
    else match c.state with
      | .opened => coStatus master .ok (settleClosing i (s.setConn i { c with state := .closing }))
      | .error => coStatus master .ok (s.setConn i { c with state := .closed, closedAt := s.time })
      | .closing => coStatus master .ok s
      | .connecting => coStatus master .invalidMode s
      | .closed => coStatus master .absent s

/-- KEEPER_CONNECT: the Keeper opens a Keeper connection to a peer with a valid node-table entry and none yet (R243, R244). -/
def keeperConnect (node : Nat) (s : State) : State :=
  let held := s.pft.conns.any fun kv => kv.2.keeper && kv.2.node == node && kv.2.state != .closed && kv.2.state != .error
  if held ∨ s.field pgPft 0x084 0 1 node = 0 then s
  else match makeConn .connecting true node [] 0 0 0 s with
    | none => s
    | some (i, s1) => sendConnect i false s1

/-- KEEPER_CONNECT. -/
def execKeeperConnect (node : Nat) (s : State) : Host.Outcome State Fault Refusal := ok (whenReady (keeperConnect node) s)

/-! ## Arriving headers (R239, R240, R246) -/

/-- Header fields common to every type (Table 10-3). -/
def pType (h : Bytes) : Nat := byteAt h 0 % 16
def pFlags (h : Bytes) : Nat := byteAt h 1
def pDst (h : Bytes) : Nat := beAt h 2 2
def pSrc (h : Bytes) : Nat := beAt h 4 2
def pNode (h : Bytes) : Nat := beAt h 6 2 % 4096
def pPsn (h : Bytes) : Nat := beAt h 8 4 % 2 ^ 24
def pMsg (h : Bytes) : Nat := beAt h 12 4

/-- R240: the version, the type, and every reserved bit zero. Bits beside a field that Table 10-3 or Table 14-6 does not list are
reserved too (log entry 148). -/
def hdrOk (h : Bytes) : Bool :=
  let t := pType h
  let f := pFlags h
  decide (h.length = 40 ∧ byteAt h 0 / 16 = 1 ∧ 1 ≤ t ∧ t ≤ 8 ∧ f < 16 ∧ beAt h 6 2 < 4096 ∧ byteAt h 8 < 16)
    && (if t = 1 ∨ t = 2 then zerosAt h 36 4
        else if t = 3 then zerosAt h 16 1 && zerosAt h 36 4
        else if t = 4 ∨ t = 5 then byteAt h 16 ≤ 1 && zerosAt h 17 1 && decide (beAt h 18 2 < 4096) && zerosAt h 20 1 && zerosAt h 24 16
        else if t = 8 then decide (byteAt h 18 < 32 ∧ byteAt h 19 < 32 ∧ beAt h 36 2 < 512 ∧ byteAt h 38 < 16 ∧ byteAt h 39 = 0)
        else zerosAt h 16 24)

/-- A frame arrives on a port. One above 9,216 bytes, below 64, or not for the node is discarded (R237, R239, R262). Any other counts
there, and with PFT enabled, a right UDP checksum and a right header it goes on to `go`; a wrong one is dropped and counted in
PFT_DROP_HDR (R239, R240). -/
def onPacket (p : Packet) (typ : Nat) (go : State → State) (s : State) : State :=
  if !s.pftEnabled ∨ !s.upPorts.contains p.port ∨ s.quiet 17 ∨ s.quiet 18 then s
  else if 9216 < p.frameLen then s.bump (pgEth p.port) 0x090
  else if p.frameLen < 64 then s
  else if !s.addressed p then s.bump (pgEth p.port) 0x094
  else
    let s1 := countUp (pgEth p.port) 0x078 p.frameLen (countUp (pgEth p.port) 0x068 1 s)
    if !p.csumOk ∨ !hdrOk p.hdr ∨ pType p.hdr ≠ typ then s1.bump pgPft 0x0CC else go s1

/-- The connection a packet passes for (R246). -/
def State.passes (s : State) (h : Bytes) (states : List CState) : Option Conn :=
  match Map.find? s.pft.conns (pDst h) with
  | some c =>
    if states.contains c.state ∧ c.node = pNode h ∧ (pType h = 5 ∨ c.peer = pSrc h) then some c else none
  | none => none

/-- Answers a packet with a control packet to the node that sent it. -/
def answer (p : Packet) (typ src : Nat) (rest : Bytes) (s : State) : State :=
  sendCtrl (s.reach (pNode p.hdr) p.src) typ (pSrc p.hdr) src 0 rest s

/-- Answers a packet that fails R246 with an ACK of CODE NOCONN. -/
def answerNoConn (p : Packet) (s : State) : State :=
  answer p 3 (pDst p.hdr) (ackRest 0 0 (pPsn p.hdr) 4 (pMsg p.hdr)) s

/-! ## CONNECT, ACCEPT, CLOSE -/

/-- Accepts a CONNECT on a new connection, or answers CLOSE with the table full. -/
def acceptConn (keeper : Bool) (p : Packet) (part tenant : Nat) (s : State) : State :=
  let h := p.hdr
  match makeConn .opened keeper (pNode h) p.src part (pSrc h) (beAt h 20 4 % 2 ^ 24) s with
  | none => answer p 6 0 [] s
  | some (i, s1) =>
    let psn := match Map.find? s1.pft.conns i with | some c => c.oldest | none => 0
    connOpened i (answer p 5 i (openRest keeper tenant psn) s1)

/-- CONNECT (R243, R244). -/
def connectArrives (p : Packet) (s : State) : State :=
  let h := p.hdr
  let node := pNode h
  let refuse : State := answer p 6 0 [] s
  if byteAt h 16 = 0 then
    match s.tenantPart (beAt h 18 2) with
    | some part => if s.partActive part then acceptConn false p part (beAt h 18 2) s else refuse
    | none => refuse
  else if s.field pgPft 0x084 0 1 node = 0 then refuse
  else
    let mine (f : CState → Bool) : Option Nat :=
      (List.find? (fun kv => kv.2.keeper && kv.2.node == node && f kv.2.state) s.pft.conns).map (·.1)
    if (mine fun x => x == .connecting).isSome ∧ s.nodeId < node then refuse
    else
      let s1 := match mine fun x => x == .opened || x == .closing with | some i => connError i 3 s | none => s
      acceptConn true p 0 0 s1

/-- CONNECT. -/
def execConnect (p : Packet) (s : State) : Host.Outcome State Fault Refusal :=
  ok (whenReady (onPacket p 4 (connectArrives p)) s)

/-- ACCEPT (R245): it supplies the peer's index and first PSN. The connection of a partition that is being deleted closes again
(R418). -/
def acceptArrives (p : Packet) (s : State) : State :=
  let h := p.hdr
  match s.passes h [.connecting] with
  | none => answerNoConn p s
  | some c =>
    let i := pDst h
    let s1 := s.setConn i (s.startTimer { c with state := .opened, peer := pSrc h, rxNext := beAt h 20 4 % 2 ^ 24 })
    if c.keeper ∨ s.partActive c.part then connOpened i s1 else settleClosing i (s1.updConn i fun x => { x with state := .closing })

/-- ACCEPT. -/
def execAccept (p : Packet) (s : State) : Host.Outcome State Fault Refusal := ok (whenReady (onPacket p 5 (acceptArrives p)) s)

/-- CLOSE (R244, R245). -/
def closeArrives (h : Bytes) (s : State) : State :=
  match s.passes h [.connecting, .opened, .closing] with
  | none => s
  | some c =>
    let i := pDst h
    match c.state with
    | .connecting =>
      let crossed := c.keeper && s.pft.conns.any fun kv => kv.1 != i && kv.2.keeper && kv.2.node == c.node
        && (kv.2.state == .opened || kv.2.state == .closing)
      if crossed then s.setConn i { c with state := .closed, closedAt := s.time } else connError i 0 s
    | .opened => settleClosing i (s.setConn i { c with state := .closing })
    | _ => s

/-- CLOSE. -/
def execClose (p : Packet) (s : State) : Host.Outcome State Fault Refusal := ok (whenReady (onPacket p 6 (closeArrives p.hdr)) s)

/-! ## Acknowledgements at the receiver (R249) -/

/-- The SACK bits of a connection: bit i for PSN NEXT + 1 + i (Table 10-3). -/
def Conn.sackBits (c : Conn) : Nat :=
  c.rxGot.foldl (fun n p =>
    let d := (p + 2 ^ 24 - c.rxNext) % 2 ^ 24
    if 1 ≤ d ∧ d ≤ 64 then n ||| 2 ^ (d - 1) else n) 0

/-- Sends an ACK for a packet; nothing is then unacknowledged. -/
def sendAck (i code apsn amsg : Nat) (s : State) : State :=
  match Map.find? s.pft.conns i with
  | none => s
  | some c =>
    sendCtrl c.addr 3 c.peer i 0 (ackRest c.rxNext c.sackBits apsn code amsg) (s.setConn i { c with unacked := 0 })

/-- PFT_ACK.DELAY in ns. -/
def State.ackAfter (s : State) : Nat := 100 * s.field pgPft 0x050 8 8

/-- ACK_DELAY_EXPIRY (R249): PFT_ACK.DELAY after the first packet that no ACK has covered yet, they are acknowledged. -/
def ackDelay (i : Nat) (s : State) : State :=
  match Map.find? s.pft.conns i with
  | none => s
  | some c => if c.unacked ≠ 0 ∧ c.firstAt + s.ackAfter ≤ s.time ∧ (c.state = .opened ∨ c.state = .closing) then sendAck i 0 c.lastRx c.lastMsg s else s

/-- ACK_DELAY_EXPIRY. -/
def execAckDelayExpiry (conn : Nat) (s : State) : Host.Outcome State Fault Refusal := ok (whenReady (ackDelay conn) s)

/-! ## Acknowledgements at the sender (R248, R249, R257) -/

/-- Whether an ACK covers a PSN: below its NEXT, or set in its SACK. -/
def acked (oldest next sack psn : Nat) : Bool :=
  let n := (next + 2 ^ 24 - oldest) % 2 ^ 24
  let d := (psn + 2 ^ 24 - oldest) % 2 ^ 24
  let k := (psn + 2 ^ 24 - (next + 1)) % 2 ^ 24
  (decide (n ≤ 4096) && decide (d < n)) || (decide (k < 64) && bitOf sack k)

/-- Whether a message still has a packet to be acknowledged. -/
def Conn.pending (c : Conn) (m : TxMsg) : Bool :=
  let mine (p : TxPkt) : Bool := decide ((p.psn + 2 ^ 24 - m.first) % 2 ^ 24 ≤ (m.last + 2 ^ 24 - m.first) % 2 ^ 24)
  c.pkts.any mine || c.waitq.any mine

/-- Completes the messages of a connection whose packets are all acknowledged, oldest first (R257). -/
def completeAcked (i : Nat) : List TxMsg → State → State
  | [], s => s
  | m :: ms, s =>
    match Map.find? s.pft.conns i with
    | none => s
    | some c =>
      if c.pending m then completeAcked i ms s
      else
        let c1 : Conn := { c with msgs := c.msgs.filter fun x => x.msg != m.msg }
        if m.isWrite ∧ !m.fin then completeAcked i ms (s.setConn i { c1 with errSince := if m.err = 0 then c.errSince else m.err })
        else
          let err := if m.err = 0 ∧ m.isWrite then c.errSince else m.err
          let s1 := s.setConn i { c1 with errSince := if m.isWrite then 0 else c.errSince }
          completeAcked i ms (keeperAcked { m with err } (completeMsg m (codeStatus err) s1))

/-- An ACK on a connection that passes R246. -/
def ackOn (i : Nat) (c : Conn) (h : Bytes) (s : State) : State :=
  let code := beAt h 28 4 / 2 ^ 24
  if code = 4 then connError i 2 s
  else
    let next := beAt h 16 4 % 2 ^ 24
    let sack := beAt h 20 8
    let amsg := beAt h 32 4
    let left := c.pkts.filter fun p => !acked c.oldest next sack p.psn
    let oldest := match left with | p :: _ => p.psn | [] => match c.waitq with | p :: _ => p.psn | [] => c.nextPsn
    let moved := oldest != c.oldest
    let mark (m : TxMsg) : TxMsg := if m.msg = amsg ∧ code ≠ 0 then { m with err := code } else m
    let c0 : Conn := { c with pkts := left, oldest, sack, msgs := c.msgs.map mark }
    let c1 := if moved then s.startTimer c0 else c0
    let s1 := s.setConn i c1
    let s2 := completeAcked i c1.msgs s1
    settleClosing i (reportSat s2 (pump (c1.waitq.length + 1) i s2))

/-- PFT_ACK. -/
def ackArrives (h : Bytes) (s : State) : State :=
  match s.passes h [.opened, .closing] with
  | none => s
  | some c => ackOn (pDst h) c h s

/-- PFT_ACK. -/
def execPftAck (p : Packet) (s : State) : Host.Outcome State Fault Refusal := ok (whenReady (onPacket p 3 (ackArrives p.hdr)) s)

/-! ## Retransmission (R250) -/

/-- A packet sent again: RETX set, on the next path (R242). -/
def retx (paths : Nat) (p : TxPkt) : TxPkt :=
  let path := (p.path + 1) % paths
  let flags : Byte := (p.hdr.getD 1 0) ||| 8
  { p with path, hdr := overwrite (overwrite p.hdr 1 [flags]) 8 [BitVec.ofNat 8 path] }

/-- RETRANSMIT_TIMEOUT: the timer expires when its time has passed since it started. Every unacknowledged packet that the latest SACK
does not show is sent again, the timer doubles up to 500 µs and starts again; after RETRY_MAX expiries the connection enters ERROR.
CONNECT is sent again on the same schedule. -/
def retransmit (i : Nat) (s : State) : State :=
  match Map.find? s.pft.conns i with
  | none => s
  | some c =>
    let n := c.expiries + 1
    let live := c.state = .connecting ∨ ((c.state = .opened ∨ c.state = .closing) ∧ c.pkts ≠ [])
    if !(decide live) ∨ s.time < c.timer + 1000 * c.rto then s
    else if s.field pgPft 0x048 16 4 ≤ n then connError i 1 s
    else
      let paths := max 1 (s.field pgPft 0x040 4 5)
      let pkts := c.pkts.map (retx paths)
      let s1 := s.setConn i { c with expiries := n, rto := min 500 (2 * c.rto), timer := s.time, pkts }
      if c.state = .connecting then sendConnect i true (s1.bump pgPft 0x0C0)
      else
        let s2 := s1.bump pgPft 0x0C0 pkts.length
        reportSat s2 (pkts.foldl (fun t p => txPkt c.part p t) s2)

/-- RETRANSMIT_TIMEOUT. -/
def execRetransmitTimeout (conn : Nat) (s : State) : Host.Outcome State Fault Refusal := ok (whenReady (retransmit conn) s)

end Sys2Proof.Machine
end

