-- ==== Sys2Proof/Machine/Commands.lean ====
section
/-! DEFINITION. The request decoder: a command block by its opcode (Table 12-3, R252), CLAIM (R298), and the end of a freeze that was
not answered (R365). -/
namespace Sys2Proof.Machine

/-! ## CLAIM and primacy (R296 to R299) -/

/-- Sets a cause bit on all eight HQ pages of a port. -/
def hqCause (port bit : Nat) (s : State) : State := (List.range 8).foldl (fun t g => setCause (pgHq port g) bit t) s

/-- Opcode of CLAIM. -/
def opClaim : Nat := 0x0F

/-- A port becomes primary, and PRIMARY_CHANGED goes to PF0 of both ports. `why` is 0 for CLAIM, 1 for a
handover. The summary is armed and evaluated again for the new primary (R420). -/
def makePrimary (port why : Nat) (s : State) : State :=
  let s1 : State := { s with primary := port }
  evalInt ((raise (event 0 0 0x0143 (pgHq port 0) port why) (hqCause 1 1 (hqCause 0 1 s1))).setField pgInt 0x044 0 1 1)

/-- CLAIM (R298). -/
def runClaim (src : Src) (blk : Bytes) (s : State) : State :=
  let id := blkId blk
  if blk.length ≠ 64 ∨ !zerosAt blk 8 56 then finish src id .invalidMode s
  else match src with
    | .host port fn _ _ _ _ =>
      if fn ≠ 0 ∨ port = s.primary then finish src id .denied s
      else if !s.peerLost.contains port then finish src id .busy s
      else finish src id .ok (makePrimary port 0 { logCommand (s.masterOf src) opClaim 0 s.primary port s with peerLost := [] })
    | _ => finish src id .denied s

/-- CLAIM. -/
def execClaim (src : Src) (blk : Bytes) (s : State) : Host.Outcome State Fault Refusal :=
  ok (serving opClaim src blk (runClaim src blk) s)

/-! ## The decoder -/

/-- Runs a command block by its opcode; an opcode that Table 12-3 does not list gives INVALID_MODE (R284). -/
def runCommand (op : Nat) (src : Src) (blk : Bytes) (s : State) : State :=
  if op = opQuery then runQuery src blk s
  else if op = opAppend then runAppend src blk s
  else if op = opSeal then runSeal src blk s
  else if op = opFetch then runFetch src blk s
  else if op = opLend then runLend src blk s
  else if op = opReclaim then runReclaim src blk s
  else if op = opMirror then runMirror src blk s
  else if op = opMerge then runMerge src blk s
  else if op = opLookup then runLookup src blk s
  else if op = opInsert then runInsert src blk s
  else if op = opDelete then runDelete src blk s
  else if op = opAbort then runAbort src blk s
  else if op = opRole then runRole src blk s
  else if op = opClaim then runClaim src blk s
  else finish src (blkId blk) .invalidMode s

/-- The commands a CMD SEND may carry, in the order R252 names them. -/
def sendCommands : List Nat :=
  [opQuery, opAppend, opSeal, opMerge, opLookup, opInsert, opDelete, opLend, opFetch, opReclaim, opAbort]

/-- The opcode of a block that came in a CMD SEND: R252 gives the block no opcode field, so which of its commands it is, is free. -/
def sendOp (blk : Bytes) : Nat := sendCommands.getD (Config.sendOpcode blk % 11) opQuery

/-- The COMP field of a command block, 0 where the block has none (R360). -/
def blkComp (op : Nat) (b : Bytes) : Nat :=
  if op = opQuery then leAt b 52 4
  else if op = opMerge then leAt b 28 4
  else if op = opAbort ∨ op = opReclaim ∨ op = opFetch then 0
  else leAt b 44 4

/-! ## HANDOVER_TIMEOUT (R365) -/

/-- A held request runs here after all, with what is left of its deadline. -/
def resumeHeld (i : Nat) (s : State) : State :=
  match Map.find? s.reqs i with
  | none => s
  | some r =>
    if r.status.isSome then s
    else
      let blk := match r.deadline with
        | some d => if r.flags = opQuery then overwrite r.blk 36 (toLE 4 (max 1 (s.remaining d))) else r.blk
        | none => r.blk
      runCommand r.flags r.src blk { s with reqs := Map.erase s.reqs i }

/-- No answer came within 10 ms: at the partner the PROMOTE in entry `req` ends with DEADLINE, and at the primary the conversation
`conv` resumes as before. -/
def handoverTimeout (req conv : Nat) (s : State) : State :=
  let s1 := match s.handover? req with
    | some r => if r.deadline.getD 0 ≤ s.time then commitReq req .deadline (mirrorResult r.id Status.deadline.code 0 0 0) s else s
    | none => s
  match Map.find? s1.convs conv with
  | none => s1
  | some c =>
    if c.freezer.isSome ∧ !c.answered ∧ c.frozenAt + 10000000 ≤ s1.time then
      let s2 : State := { s1 with convs := Map.insert s1.convs conv { c with freezer := none, held := [] } }
      c.held.foldl (fun t i => resumeHeld i t) s2
    else s1

/-- HANDOVER_TIMEOUT. -/
def execHandoverTimeout (req conv : Nat) (s : State) : Host.Outcome State Fault Refusal := ok (whenReady (handoverTimeout req conv) s)

end Sys2Proof.Machine
end

