-- ==== Sys2Proof/Machine/Recv.lean ====
section
/-! DEFINITION. Arriving SEND, WRITE and EVENT packets: the receive window (R247), the placement of WRITEs and the completion of FIN
writes (R254 to R256), and the reassembly of SENDs into posted buffers or commands (R251, R252). -/
namespace Sys2Proof.Machine

/-! ## The window (R247, R249) -/

/-- How an arriving PSN stands to NEXT. -/
inductive Arrival where
  | new | dup | far
deriving DecidableEq, Repr

/-- R247. -/
def Conn.arrival (c : Conn) (psn : Nat) : Arrival :=
  let d := (psn + 2 ^ 24 - c.rxNext) % 2 ^ 24
  if d < 2048 then (if c.rxGot.contains psn then .dup else .new)
  else if 2 ^ 24 - 4096 ≤ d then .dup
  else .far

/-- NEXT moves past every received PSN; the WRITE bytes of those packets enter the in-order count (R247, R255). -/
def Conn.advance : Nat → Conn → Conn
  | 0, c => c
  | fuel + 1, c =>
    if c.rxGot.contains c.rxNext then
      Conn.advance fuel { c with
        rxGot := c.rxGot.erase c.rxNext, rxSizes := Map.erase c.rxSizes c.rxNext, rxNext := (c.rxNext + 1) % 2 ^ 24,
        inOrder := (c.inOrder + Map.getD c.rxSizes c.rxNext 0) % 2 ^ 32 }
    else c

/-- A new packet has been received at time `now`: `size` bytes of WRITE payload. -/
def Conn.receive (c : Conn) (psn size msg now : Nat) : Conn :=
  Conn.advance 2049 { c with rxGot := psn :: c.rxGot, rxSizes := Map.put c.rxSizes psn size 0, lastRx := psn, lastMsg := msg,
                             unacked := c.unacked + 1, firstAt := if c.unacked = 0 then now else c.firstAt }

/-- Acknowledges an accepted packet as R249 says: at once with ACKREQ, FIN or a CODE, or when PFT_ACK.COUNT packets have come. -/
def ackAccepted (i code : Nat) (h : Bytes) (s : State) : State :=
  match Map.find? s.pft.conns i with
  | none => s
  | some c =>
    if bitOf (pFlags h) 2 ∨ bitOf (pFlags h) 0 ∨ code ≠ 0 ∨ s.field pgPft 0x050 0 5 ≤ c.unacked then
      sendAck i code (pPsn h) (pMsg h) s
    else s

/-- A duplicate is acknowledged again at once and discarded. -/
def duplicate (i : Nat) (h : Bytes) (s : State) : State := sendAck i 0 (pPsn h) (pMsg h) (s.bump pgPft 0x0C4)

/-- Counts an accepted sequenced packet, and its payload where it was placed. -/
def countRx (placed : Nat) (s : State) : State := countUp pgPft 0x0B8 placed (countUp pgPft 0x0A8 1 s)

/-- The partition of a connection as a record names it: none on a Keeper connection. -/
def Conn.recPart (c : Conn) : Option Nat := if c.keeper then none else some c.part

/-- A sequenced packet arrives (R246, R270, R247). `place` accepts a new one. -/
def onSequenced (p : Packet) (place : Nat → Conn → State → State) (s : State) : State :=
  let h := p.hdr
  match s.passes h [.opened, .closing] with
  | none => answerNoConn p s
  | some c =>
    let policed : Option State := if c.keeper ∨ pType h = 7 then some s else police p.port c.part p.frameLen s
    match policed with
    | none => policeDrop c.part s
    | some s1 => match c.arrival (pPsn h) with
      | .new => place (pDst h) c s1
      | .dup => duplicate (pDst h) h s1
      | .far => s1.bump pgPft 0x0C8

/-! ## WRITE -/

/-- Fields of a WRITE header (Table 10-3). -/
def wRkey (h : Bytes) : Nat := beAt h 16 4
def wOff (h : Bytes) : Nat := beAt h 20 8
def wLen (h : Bytes) : Nat := beAt h 28 4
def wTotal (h : Bytes) : Nat := beAt h 32 4

/-- The owner a connection writes as (R254). -/
def Conn.owner (c : Conn) : Nat := if c.keeper then keeperOwner else c.part

/-- The region a WRITE packet may be placed in (R254). -/
def State.target (s : State) (c : Conn) (h : Bytes) (n : Nat) : Option RRegion :=
  match s.regionOf (wRkey h) with
  | some r => if r.owner = c.owner ∧ wOff h + n ≤ r.len then some r else none
  | none => none

/-- Whether a region is a mirror target (log entry 27). -/
def RRegion.isMirror (r : RRegion) : Bool := r.owner == keeperOwner && r.loc == 2 && r.finQp == mirrorMark

/-- Whether the region of a WRITE belongs to a grant that is being reclaimed, which takes no new placement (R203). -/
def State.reclaiming (s : State) (rkey : Nat) : Bool := s.tier.grantsOut.any fun g => g.2.noPlace && g.2.rkey == rkey / 65536

/-- Whether a packet is placed: R254, for a Buoy record that the partner can apply it (R351), and no grant under reclaim (R203). -/
def State.placeable (s : State) (c : Conn) (h payload : Bytes) : Bool :=
  match s.target c h payload.length with
  | some r => if s.reclaiming (wRkey h) then false else if r.isMirror ∧ bitOf (pFlags h) 0 then (applyRecord c.node payload s).isSome else true
  | none => false

/-- Places the payload of a WRITE packet into its region: host memory, or the region's contents in HBM. -/
def placeBytes (h payload : Bytes) (s : State) : State :=
  match s.regionOf (wRkey h) with
  | none => s
  | some r =>
    if r.loc < 2 then s.send (.hostWrite r.loc (r.base + wOff h) payload)
    else
      let mem := (List.range payload.length).foldl (fun m k => Map.insert m (wOff h + k) (payload.getD k 0)) r.mem
      { s with pft := { s.pft with regions := Map.insert s.pft.regions (wRkey h / 65536) { r with mem } } }

/-- Whether an in-order count has reached a TOTAL, both modulo 2^32 (R255). -/
def reached (count total : Nat) : Bool := decide ((count + 2 ^ 32 - total % 2 ^ 32) % 2 ^ 32 < 2 ^ 31)

/-- Entries of the FIN-hold table (R256). -/
def finTable : Nat := 8192

/-- The contribution of a MERGE whose receive region is `idx`: its result has come (R150, R152); a second one is
discarded. -/
def contributionArrived (idx off len : Nat) (s : State) : State :=
  let one (r : Req) (k : Nat) : Bool := match r.contribs[k]? with | some c => c.rkey == idx && c.state == 1 | none => false
  match List.find? (fun kv => kv.2.kind == .merge && (List.range kv.2.contribs.length).any (one kv.2)) s.reqs,
        Map.find? s.pft.regions idx with
  | some (i, r), some g =>
    if off ≠ 0 then s
    else
      let got := some (g.bytes 0 len)
      let upd (c : Contribution) : Contribution := if c.rkey = idx ∧ c.state = 1 ∧ c.got.isNone then { c with got } else c
      meter r.slot 4 len (s.updReq i fun q => { q with contribs := q.contribs.map upd })
  | _, _ => s

/-- A FIN write into one of the node's own regions has completed with ERR (R255): what was waited for there is taken as if its
connection had failed (log entry 149). -/
def ownFinErr (idx : Nat) (s : State) : State :=
  match s.tier.fetches.find? fun x => x.region == idx with
  | some x =>
    let s1 := deregister idx { s with tier := { s.tier with fetches := s.tier.fetches.erase x } }
    match Map.find? s.pages x.page with
    | some p => if x.why = 2 then (if p.restoring then restoreFailed x.page s1 else s1) else fetchBad x p false s1
    | none => s1
  | none =>
    if s.tier.asked.any fun a => a.2.2 == idx then
      deregister idx { s with tier := { s.tier with asked := s.tier.asked.filter fun a => a.2.2 != idx } }
    else loseWhere (fun c => c.rkey == idx) s

/-- A FIN write into one of the node's own regions has completed: what it was waited for goes on. -/
def ownFin (node : Nat) (f : FinHold) (r : RRegion) (err : Bool) (s : State) : State :=
  let idx := f.rkey / 65536
  if r.isMirror then (if f.data = [] then s else (applyRecord node f.data s).getD s)
  else if err ∧ !(s.tier.grantsOut.any fun g => g.2.rkey == idx) ∧ r.finQp ≠ discardMark then ownFinErr idx s
  else match s.tier.fetches.find? fun x => x.region == idx with
    | some x => match Map.find? s.pages x.page with
      | some p =>
        if f.off = roundUp (s.carried p) 64 then fetchDone idx s else s
      | none => deregister idx { s with tier := { s.tier with fetches := s.tier.fetches.filter fun y => y.region != idx } }
    | none =>
      if s.tier.asked.any fun a => a.2.2 == idx then grantArrived idx s
      else if s.tier.grantsOut.any fun g => g.2.rkey == idx then settleReturns s
      else if r.finQp = discardMark then deregister idx s
      else forwardDone idx (contributionArrived idx f.off f.len s)

/-- The completion of a FIN write at the receiver (R255, R293): a KIND 3 entry, or the node's own business. -/
def finArrived (i : Nat) (c : Conn) (f : FinHold) (s : State) : State :=
  match s.regionOf f.rkey with
  | none => s
  | some r =>
    if r.owner ≠ c.owner then s
    else if r.loc < 2 then
      postCqe r.loc r.finQp
        { tag := f.rkey + i * 2 ^ 32, status := if c.refusedSince then Status.denied.code else 0, trunc := false, kind := 3, cid := 0,
          bytes := f.len, aux := 0 } s
    else ownFin c.node f r c.refusedSince s

/-- The held FIN write of a connection that completes next: the first in TOTAL order whose TOTAL is reached. -/
def State.nextFin (s : State) (i : Nat) (c : Conn) : Option FinHold :=
  let ready := s.pft.finHold.filter fun f => f.conn == i && reached c.inOrder f.total
  let age (f : FinHold) : Nat := (c.inOrder + 2 ^ 32 - f.total % 2 ^ 32) % 2 ^ 32
  ready.foldl (fun b f => match b with
    | some g => if age g < age f then some f else b
    | none => some f) none

/-- Completes the FIN writes of a connection whose TOTAL is reached, in TOTAL order. -/
def completeFins (i : Nat) : Nat → State → State
  | 0, s => s
  | fuel + 1, s =>
    match Map.find? s.pft.conns i with
    | none => s
    | some c => match s.nextFin i c with
      | none => s
      | some f =>
        let s1 : State := { s with pft := { s.pft with finHold := s.pft.finHold.erase f } }
        completeFins i fuel (finArrived i c f (s1.setConn i { c with refusedSince := false }))

/-- Enters a FIN packet in the FIN-hold table, one entry for each FIN write. -/
def holdFin (i : Nat) (h data : Bytes) (s : State) : State :=
  let mine (f : FinHold) : Bool := f.conn == i && f.msg == pMsg h
  let hold := if s.pft.finHold.any mine then
      s.pft.finHold.map fun f => if mine f then { f with off := min f.off (wOff h), data := f.data ++ data } else f
    else s.pft.finHold ++ [{ conn := i, total := wTotal h, msg := pMsg h, rkey := wRkey h, len := wLen h, off := wOff h, data }]
  { s with pft := { s.pft with finHold := hold } }

/-- Counts a WRITE packet refused by R254. -/
def refuseWrite (i : Nat) (c : Conn) (h : Bytes) (s : State) : State :=
  raise (eventFor c.recPart 4 1 0x0112 pgPft i (wRkey h)) (setCause pgPft 3 (s.bump pgPft 0x0D0))

/-- A new WRITE packet is placed or refused, counted in order, acknowledged, and completes what it completes (R254 to R256). -/
def acceptWrite (p : Packet) (i : Nat) (c : Conn) (s : State) : State :=
  let h := p.hdr
  let n := p.payload.length
  let good := s.placeable c h p.payload
  let fin := bitOf (pFlags h) 0
  let c1 := { c with refusedSince := c.refusedSince || !good }.receive (pPsn h) n (pMsg h) s.time
  let held := s.pft.finHold.any fun f => f.conn == i && f.msg == pMsg h
  if fin ∧ !held ∧ !reached c1.inOrder (wTotal h) ∧ finTable ≤ s.pft.finHold.length then
    setCause pgPft 4 (s.bump pgPft 0x0DC)
  else
    let s1 := s.setConn i c1
    let s2 := if good then countRx n (placeBytes h p.payload s1) else refuseWrite i c h (countRx 0 s1)
    let mirror : Bool := match s.target c h n with | some r => r.isMirror | none => false
    let s3 := if fin then holdFin i h (if good && mirror then p.payload else []) s2 else s2
    completeFins i (s3.pft.finHold.length + 1) (ackAccepted i (if good then 0 else 2) h s3)

/-- PFT_WRITE_PACKET. -/
def execPftWritePacket (p : Packet) (s : State) : Host.Outcome State Fault Refusal :=
  ok (whenReady (onPacket p 2 (onSequenced p (acceptWrite p))) s)

/-! ## SEND -/

/-- Fields of a SEND header (Table 10-3). -/
def sLen (h : Bytes) : Nat := beAt h 16 4
def sOff (h : Bytes) : Nat := beAt h 20 4
def sRkey (h : Bytes) : Nat := beAt h 24 4
def sRetOff (h : Bytes) : Nat := beAt h 28 8
def sCmd (h : Bytes) : Bool := bitOf (pFlags h) 1

/-- Partly received SENDs a node holds (R251). -/
def sendTable : Nat := 16384

/-- Whether a SEND is still partly received. -/
def PartialSend.partly (p : PartialSend) : Bool := decide (p.got < p.len)

/-- The entry of the first packet of a SEND to arrive: with the buffer it takes, or the CODE with which the message is dropped
(R251, R252). -/
def openSend (i : Nat) (c : Conn) (h : Bytes) (s : State) : PartialSend × State :=
  let e : PartialSend := { conn := i, msg := pMsg h, len := sLen h, cmd := sCmd h, rkey := sRkey h, off := sRetOff h, buf := ⟨0, 0, 0⟩,
                           part := if c.keeper then keeperOwner else c.part, got := 0, data := [], drop := 0 }
  if sCmd h ∧ sRkey h = 0 then ({ e with drop := 2 }, s)
  else if c.keeper then (e, s)
  else match Map.find? s.srqs c.part with
    | some q => match q.bufs with
      | b :: rest =>
        if b.len < sLen h then ({ e with drop := 3 }, s)
        else
          let n := 2 ^ bitsOf (s.reg (pgHq q.port 0) 0x0AC c.part) 0 5
          ({ e with buf := b }, { s with srqs := Map.insert s.srqs c.part { q with bufs := rest, head := (q.head + 1) % n } })
      | [] => ({ e with drop := 1 }, s)
    | none => ({ e with drop := 1 }, s)

/-- Counts and reports a SEND dropped for an empty SRQ (R251). -/
def rnrDrop (i : Nat) (c : Conn) (h : Bytes) (s : State) : State :=
  raise (eventFor c.recPart 4 1 0x0111 pgPft i (pMsg h)) (setCause pgPft 2 (s.bump pgPft 0x0D4))

/-- The bytes of a wholly received SEND. -/
def PartialSend.bytes (p : PartialSend) : Bytes := slice (p.data.flatMap (·.2)) 0 p.len

/-- A SEND is wholly placed: a KIND 1 entry, or its command goes to the decoder (R251, R252). -/
def sendDone (e : PartialSend) (s : State) : State :=
  let s1 : State := { s with pft := { s.pft with sends := s.pft.sends.erase e } }
  if e.drop ≠ 0 then s1
  else if e.cmd then
    let op := sendOp e.bytes
    serving op (.pft e.conn e.msg e.rkey e.off) e.bytes (runCommand op (.pft e.conn e.msg e.rkey e.off) e.bytes)
      (meter (s.chargeSlot (blkComp op e.bytes)) 4 e.len s)
  else match Map.find? s.srqs e.part with
    | some q =>
      postCqe q.port (bitsOf (s.reg (pgHq q.port 0) 0x0AC e.part) 16 12)
        { tag := e.buf.tag + e.conn * 2 ^ 32, status := 0, trunc := false, kind := 1, cid := 0, bytes := e.len, aux := 0 } s1
    | none => s1

/-- Puts a packet's payload into its SEND's buffer. -/
def placeSend (e : PartialSend) (h payload : Bytes) (s : State) : PartialSend × State :=
  let e1 := { e with got := e.got + payload.length, data := if e.drop = 0 then Map.insert e.data (sOff h) payload else [] }
  let s1 := match Map.find? s.srqs e.part with
    | some q => if e.drop = 0 then s.send (.hostWrite q.port (e.buf.addr + sOff h) payload) else s
    | none => s
  (e1, { s1 with pft := { s1.pft with sends := s1.pft.sends.erase e ++ [e1] } })

/-- A new SEND packet (R251). With the table of partly received SENDs full, it is neither placed nor acknowledged. -/
def acceptSend (p : Packet) (i : Nat) (c : Conn) (s : State) : State :=
  let h := p.hdr
  let old := s.pft.sends.find? fun e => e.conn == i && e.msg == pMsg h && e.partly
  if old.isNone ∧ sendTable ≤ (s.pft.sends.filter (·.partly)).length then s
  else
    let x : PartialSend × State := match old with | some e => (e, s) | none => openSend i c h s
    let s1 := if old.isNone ∧ x.1.drop = 1 then rnrDrop i c h x.2 else x.2
    let y := placeSend x.1 h p.payload (s1.setConn i (c.receive (pPsn h) 0 (pMsg h) s.time))
    let s2 := ackAccepted i x.1.drop h (countRx (if x.1.drop = 0 then p.payload.length else 0) y.2)
    if y.1.partly then s2 else sendDone y.1 s2

/-- PFT_SEND_PACKET. -/
def execPftSendPacket (p : Packet) (s : State) : Host.Outcome State Fault Refusal :=
  ok (whenReady (onPacket p 1 (onSequenced p (acceptSend p))) s)

/-! ## EVENT -/

/-- A new EVENT packet is accepted and acknowledged; what a receiver does with a peer's record the spec does not say. -/
def acceptEvent (p : Packet) (i : Nat) (c : Conn) (s : State) : State :=
  ackAccepted i 0 p.hdr (countRx p.payload.length (s.setConn i (c.receive (pPsn p.hdr) 0 (pMsg p.hdr) s.time)))

/-- EVENT. -/
def execEvent (p : Packet) (s : State) : Host.Outcome State Fault Refusal :=
  ok (whenReady (onPacket p 7 (onSequenced p (acceptEvent p))) s)

end Sys2Proof.Machine
end

