-- ==== Sys2Proof/Machine/HostQueue.lean ====
section
/-! DEFINITION. The queues of a host (R282 to R294): submission entries and their limits, the transport operations PFT_SEND, PFT_WRITE,
REG and DEREG, doorbells, the disable of a queue pair, held completions and interrupt coalescing. -/
namespace Sys2Proof.Machine

/-! ## Submission entries (Table 12-2) -/

/-- The fields of a submission entry. -/
structure Sqe where
  opc : Nat
  fin : Bool
  cmd : Bool
  cid : Nat
  addr : Nat
  len : Nat
  resLen : Nat
  resAddr : Nat
  conn : Nat
  rkey : Nat
  offset : Nat
  finQp : Nat
deriving DecidableEq, Repr

/-- Reads a submission entry. -/
def Sqe.ofBytes (b : Bytes) : Sqe :=
  { opc := byteAt b 0, fin := bitOf (byteAt b 1) 0, cmd := bitOf (byteAt b 1) 1, cid := leAt b 2 2, addr := leAt b 8 8,
    len := leAt b 16 4, resLen := leAt b 20 4, resAddr := leAt b 24 8, conn := leAt b 32 2, rkey := leAt b 36 4,
    offset := leAt b 40 8, finQp := bitsOf (leAt b 48 2) 0 12 }

/-- Limits of Table 12-2 for a command. -/
def Sqe.commandOk (e : Sqe) : Bool := decide (e.addr % 64 = 0 ∧ 32 ≤ e.resLen ∧ e.resAddr % 16 = 0)

/-- Limits of Tables 12-2 and 12-3 for a transport operation. -/
def Sqe.transportOk (e : Sqe) : Bool :=
  decide (e.resLen = 0 ∧ e.resAddr % 16 = 0) &&
    (if e.opc = 0x20 then decide (1 ≤ e.len ∧ e.len ≤ 4194304)
     else if e.opc = 0x21 then decide (1 ≤ e.len ∧ e.len ≤ 67108864)
     else if e.opc = 0x22 then decide (e.len = 0 ∧ e.addr % 4096 = 0 ∧ e.offset % 4096 = 0 ∧ e.offset ≤ 2 ^ 40)
     else decide (e.len = 0))

/-! ## Transport operations -/

/-- Completes a transport operation: TAG 0, no result block (Table 12-4). -/
def endTransport (port qp cid : Nat) (st : Status) (aux : Nat) (s : State) : State :=
  let s1 := postCqe port qp { tag := 0, status := st.code, trunc := false, kind := 0, cid, bytes := 0, aux } s
  let q := s1.queue port qp
  settleDisable port qp (s1.setQueue port qp { q with inflight := q.inflight.erase cid })

/-- Where a transport operation may act: a queue pair of a function mapped to a partition, on a node in service (R276, R377). -/
def onTransport (src : Src) (sqe : Bytes) (go : Nat → Nat → Nat → Nat → Sqe → State → State) (s : State) : State :=
  let e := Sqe.ofBytes sqe
  match src with
  | .host port fn qp cid _ _ =>
    match s.phase with
    | .ready =>
      if !e.transportOk then endTransport port qp cid .invalidMode 0 s
      else match s.fnPart port fn with
        | none => endTransport port qp cid .denied 0 s
        | some part => go port fn qp part e s
    | .recovery => endTransport port qp cid .invalidMode 0 s
    | .waitPwrFail => endTransport port qp cid .busy 0 s
    | _ => s
  | _ => s

/-- The connection a PFT_SEND or PFT_WRITE may use: an OPEN one of the function's partition. -/
def onOwnConn (port qp cid part : Nat) (e : Sqe) (go : State → State) (s : State) : State :=
  match Map.find? s.pft.conns e.conn with
  | none => endTransport port qp cid .absent 0 s
  | some c =>
    if c.keeper ∨ c.part ≠ part then endTransport port qp cid .denied 0 s
    else if c.state = .error then endTransport port qp cid .deadline 0 s
    else if c.state = .closed then endTransport port qp cid .absent 0 s
    else if c.state ≠ .opened then endTransport port qp cid .invalidMode 0 s
    else go s

/-- Sends host data on a connection, to be completed as R257 says. -/
def sendHost (typ port qp cid : Nat) (e : Sqe) (signalled : Bool) (data : Bytes) (s : State) : State :=
  let o : Outgoing := { typ, fin := e.fin && typ == 2, cmd := e.cmd && typ == 1, kind := 0, data := slice data 0 e.len,
                        rkey := if typ = 1 ∧ !e.cmd then 0 else e.rkey, off := if typ = 1 ∧ !e.cmd then 0 else e.offset, cid,
                        port, qp := if signalled then qp else 65535, stream := 0, buoy := 0, page := 0, seals := false }
  sendMessage e.conn o (if signalled then holdCid (.host port 0 qp cid 0 0) s else s)

/-- PFT_SEND (R241, R251). -/
def pftSend (src : Src) (sqe data : Bytes) (readOk : Bool) (s : State) : State :=
  onTransport src sqe (fun port _ qp part e t =>
    onOwnConn port qp e.cid part e (fun u =>
      if readOk then sendHost 1 port qp e.cid e true data u else endTransport port qp e.cid .integrity 0 u) t) s

/-- PFT_SEND. -/
def execPftSend (src : Src) (sqe data : Bytes) (s : State) : Host.Outcome State Fault Refusal := ok (pftSend src sqe data true s)

/-- PFT_WRITE (R254, R257): without FIN it has no completion. -/
def pftWrite (src : Src) (sqe data : Bytes) (readOk : Bool) (s : State) : State :=
  onTransport src sqe (fun port _ qp part e t =>
    onOwnConn port qp e.cid part e (fun u =>
      if readOk then sendHost 2 port qp e.cid e e.fin data u else endTransport port qp e.cid .integrity 0 u) t) s

/-- PFT_WRITE. -/
def execPftWrite (src : Src) (sqe data : Bytes) (s : State) : Host.Outcome State Fault Refusal := ok (pftWrite src sqe data true s)

/-- REG (R293, R253): it needs WRITE on the partition (R318). -/
def regRegion (src : Src) (sqe : Bytes) (s : State) : State :=
  onTransport src sqe (fun port fn qp part e t =>
    if t.right (t.masterOf src) (partTarget part) < 2 then
      endTransport port qp e.cid .denied 0 (deny (t.masterOf src) (partTarget part) t)
    else if t.queueFn port e.finQp ≠ fn then endTransport port qp e.cid .invalidMode 0 t
    else match register port e.addr e.offset part fn e.finQp t with
      | none => endTransport port qp e.cid .full 0 t
      | some (idx, u) => endTransport port qp e.cid .ok (u.rkey idx) u) s

/-- REG. -/
def execReg (src : Src) (sqe : Bytes) (s : State) : Host.Outcome State Fault Refusal := ok (regRegion src sqe s)

/-- DEREG (R293): of a host-memory region of the function's own partition. -/
def deregRegion (src : Src) (sqe : Bytes) (s : State) : State :=
  onTransport src sqe (fun port _ qp part e t =>
    match t.regionOf e.rkey with
    | none => endTransport port qp e.cid .absent 0 t
    | some r =>
      if r.owner ≠ part ∨ r.loc ≠ port then endTransport port qp e.cid .denied 0 t
      else endTransport port qp e.cid .ok 0 (deregister (e.rkey / 65536) t)) s

/-- DEREG. -/
def execDereg (src : Src) (sqe : Bytes) (s : State) : Host.Outcome State Fault Refusal := ok (deregRegion src sqe s)

/-! ## SQ_FETCH (R284, R285) -/

/-- Completes a command that was not run, on whatever node. -/
def endSqe (src : Src) (data : Bytes) (st : Status) (s : State) : State := finish src (blkId data) st s

/-- Runs a fetched entry: `data` is what stands at ADDR, `readOk` whether it could be read. -/
def runSqe (src : Src) (sqe data : Bytes) (readOk : Bool) (s : State) : State :=
  let e := Sqe.ofBytes sqe
  let blk := slice data 0 e.len
  if e.opc = 0x20 then pftSend src sqe data readOk s
  else if e.opc = 0x21 then pftWrite src sqe data readOk s
  else if e.opc = 0x22 then regRegion src sqe s
  else if e.opc = 0x23 then deregRegion src sqe s
  else if e.opc = 0 ∨ 0x0F < e.opc then endSqe src [] .invalidMode s
  else if !e.commandOk then endSqe src (if e.opc = 0x0E then [] else blk) .invalidMode s
  else if e.opc = 0x0E then
    match s.phase with
    | .ready => profileLoad src blk readOk s
    | .recovery => deliver src 1 0 Status.invalidMode.code 0 16 (loadResult Status.invalidMode.code 0 0 0 0) s
    | _ => deliver src 1 0 Status.busy.code 0 16 (loadResult Status.busy.code 0 0 0 0) s
  else if !readOk then endSqe src blk .integrity s
  else serving e.opc src blk (runCommand e.opc src blk) s

/-- Takes the entry at a queue pair's SQ head, if one is waiting: the head advances, HQ_SUBMIT counts it, and its command is run as
the function's that owns the queue pair. -/
def sqFetch (port qp : Nat) (sqe data : Bytes) (readOk : Bool) (s : State) : State :=
  let q := s.queue port qp
  let up : Bool := match s.phase with | .ready => true | .recovery => true | .waitPwrFail => true | _ => false
  if !up ∨ !s.qEnabled port qp ∨ q.disabling ∨ q.sqHead = q.sqTail then s
  else
    let e := Sqe.ofBytes sqe
    let src : Src := .host port (s.queueFn port qp) qp e.cid e.resAddr e.resLen
    let s1 := s.setQueue port qp { q with sqHead := (q.sqHead + 1) % s.sqSize port qp }
    runSqe src sqe data readOk (countUp (pgHq port 0) 0x0D0 1 s1)

/-- SQ_FETCH. -/
def execSqFetch (port qp : Nat) (sqe data : Bytes) (readOk : Bool) (s : State) : Host.Outcome State Fault Refusal :=
  ok (sqFetch port qp sqe data readOk s)

/-! ## Doorbells (R291) -/

/-- The port and function of a host master (R276). -/
def masterPort (m : Nat) : Nat := m / 0x40
def masterFn (m : Nat) : Nat := m % 0x40

/-- A doorbell that is ignored: counted for the port, and the cause set on the page of group `g` (R300, log entry 123). -/
def dbErr (port g : Nat) (s : State) : State := setCause (pgHq port g) 3 (s.bump (pgHq port 0) 0x0C0)

/-- Whether a function may use a queue pair of its port (R282). -/
def State.ownsQueue (s : State) (port fn qp : Nat) : Bool :=
  fn == 0 || (let v := s.reg (pgHq port 0) 0x058 fn
              decide (bitsOf v 0 12 ≤ qp ∧ qp < bitsOf v 0 12 + bitsOf v 16 13))

/-- Whether a function may use a partition's SRQ: PF0, or a function mapped to the partition (R292). -/
def State.ownsSrq (s : State) (port fn part : Nat) : Bool := fn == 0 || s.fnPart port fn == some part

/-- Steps from one ring index to another. -/
def ringDist (n a b : Nat) : Nat := (b + n - a) % n

/-- SQ tail of a queue pair. -/
def sqTail (port fn qp value : Nat) (s : State) : State :=
  if !s.ownsQueue port fn qp ∨ !s.qEnabled port qp ∨ s.sqSize port qp ≤ value then dbErr port (qp / 512) s
  else s.setQueue port qp { s.queue port qp with sqTail := value }

/-- CQ head of a queue pair: freed entries take held completions (R289). -/
def cqHead (port fn qp value : Nat) (s : State) : State :=
  let q := s.queue port qp
  let n := s.cqSize port qp
  if !s.ownsQueue port fn qp ∨ !s.qEnabled port qp ∨ n ≤ value ∨ ringDist n q.cqHead q.cqTail < ringDist n q.cqHead value then
    dbErr port (qp / 512) s
  else settleDisable port qp (drainCq port qp q.held.length (s.setQueue port qp { q with cqHead := value }))

/-- One EVENT_LOST record for a function's queue of `n` records that has space again. It concerns no partition, so it goes to PF0 of each
host and to the subscribed peers (R260, Table 10-7). -/
def eventLost (port fn n : Nat) (s : State) : State :=
  let q := s.eq port fn
  if q.lost = 0 ∨ (q.tail + 1) % n = q.head then s
  else raise (event 1 1 0x0113 pgPft q.lost) (s.setEq port fn { q with lost := 0 })

/-- EQ head of a function's own event queue. -/
def eqHead (port fn eqFn value : Nat) (s : State) : State :=
  let cfg := s.reg (pgHq port 0) 0x090 eqFn
  let n := 2 ^ bitsOf cfg 0 4
  let q := s.eq port eqFn
  if fn ≠ eqFn ∨ !bitOf cfg 16 ∨ n ≤ value ∨ ringDist n q.head q.tail < ringDist n q.head value then dbErr port 0 s
  else eventLost port eqFn n (s.setEq port eqFn { q with head := value })

/-- One entry of an SRQ ring (R292). -/
def bufferAt (ring : Bytes) (k : Nat) : Buffer := ⟨leAt ring (16 * k) 8, leAt ring (16 * k + 8) 4, leAt ring (16 * k + 12) 4⟩

/-- SRQ tail of a partition: the entries up to it, read from the ring in host memory, are posted. -/
def srqTail (port fn part value : Nat) (ring : Bytes) (s : State) : State :=
  match Map.find? s.srqs part with
  | none => dbErr port 0 s
  | some q =>
    let n := 2 ^ bitsOf (s.reg (pgHq port 0) 0x0AC part) 0 5
    if q.port ≠ port ∨ !s.ownsSrq port fn part ∨ n ≤ value then dbErr port 0 s
    else
      let new := (List.range (ringDist n q.tail value)).map fun k => bufferAt ring k
      { s with srqs := Map.insert s.srqs part { q with tail := value, bufs := q.bufs ++ new } }

/-- A write of a doorbell slot (Table 12-6). Masters other than a host function have no BAR2. -/
def ringDoorbell (master slot off value : Nat) (ring : Bytes) (s : State) : State :=
  if 0x80 ≤ master then s
  else
    let port := masterPort master
    let fn := masterFn master
    if slot < 4096 ∧ off = 0 then sqTail port fn slot value s
    else if slot < 4096 ∧ off = 4 then cqHead port fn slot value s
    else if 4096 ≤ slot ∧ slot < 4160 ∧ off = 4 then eqHead port fn (slot - 4096) value s
    else if 4160 ≤ slot ∧ slot < 4416 ∧ off = 0 then srqTail port fn (slot - 4160) value ring s
    else dbErr port 0 s

/-- SQ_TAIL_DOORBELL. -/
def execSqTailDoorbell (master slot off value : Nat) (s : State) : Host.Outcome State Fault Refusal :=
  ok (whenReady (ringDoorbell master slot off value []) s)

/-- CQ_HEAD_DOORBELL. -/
def execCqHeadDoorbell (master slot off value : Nat) (s : State) : Host.Outcome State Fault Refusal :=
  ok (whenReady (ringDoorbell master slot off value []) s)

/-- EQ_HEAD_DOORBELL. -/
def execEqHeadDoorbell (master slot off value : Nat) (s : State) : Host.Outcome State Fault Refusal :=
  ok (whenReady (ringDoorbell master slot off value []) s)

/-- SRQ_TAIL_DOORBELL. -/
def execSrqTailDoorbell (master slot off value : Nat) (ring : Bytes) (s : State) : Host.Outcome State Fault Refusal :=
  ok (whenReady (ringDoorbell master slot off value ring) s)

/-! ## CQ_STALL and COALESCE_TIMER_EXPIRY (R288, R289) -/

/-- A CQ has been held for 10 ms. -/
def cqStall (port qp : Nat) (s : State) : State :=
  let q := s.queue port qp
  if q.held = [] ∨ q.stalled ∨ s.time < q.heldSince + 10000000 then s
  else
    let s1 := setCause (pgHq port (qp / 512)) 2 ((s.setQueue port qp { q with stalled := true }).bump (pgHq port 0) 0x0C4)
    raise (eventFor (s.fnPart port (s.queueFn port qp)) 4 0 0x0144 (pgHq port (qp / 512)) port qp) s1

/-- CQ_STALL. -/
def execCqStall (port qp : Nat) (s : State) : Host.Outcome State Fault Refusal := ok (whenReady (cqStall port qp) s)

/-- TIME_US has passed since a queue pair's first unsignalled entry (HQ_Q_COAL). -/
def coalesce (port qp : Nat) (s : State) : State :=
  let q := s.queue port qp
  let us := bitsOf (s.reg (pgHq port 0) 0x07C qp) 8 16
  let cfg := s.qCfg port qp
  if us ≠ 0 ∧ bitOf cfg 22 ∧ q.unsignalled ≠ 0 ∧ q.firstUnsignalled + 1000 * us ≤ s.time then
    sendMsix port (s.queueFn port qp) (bitsOf cfg 16 6) (s.setQueue port qp { q with unsignalled := 0 })
  else s

/-- COALESCE_TIMER_EXPIRY. -/
def execCoalesceTimerExpiry (port qp : Nat) (s : State) : Host.Outcome State Fault Refusal := ok (whenReady (coalesce port qp) s)

end Sys2Proof.Machine
end

