-- ==== Sys2Proof/Machine/HostPort.lean ====
section
/-! DEFINITION. The host ports (R277, R295 to R299): resets and losses of functions and ports, links, the loss of the primary, its
heartbeat and its handover. -/
namespace Sys2Proof.Machine

/-- A port's events happen from power-on until the node stops, in recovery too. -/
def whenUp (f : State → State) (s : State) : State :=
  match s.phase with
  | .ready => f s
  | .recovery => f s
  | .waitPwrFail => f s
  | _ => s

/-- A PCIe port as it powers up: no link, its PERST asserted by the host. -/
def Port.initial : Port := { linkUp := false, speed := 0, width := 0, downSince := 0, perst := true, readyAt := 0, lastHb := 0 }

/-- A port. -/
def State.port (s : State) (p : Nat) : Port := Map.getD s.ports p .initial

/-- Replaces a port. -/
def State.setPort (s : State) (p : Nat) (x : Port) : State := { s with ports := Map.insert s.ports p x }

/-! ## What a reset or loss does to a function (R295) -/

/-- Whether a command came from a function. -/
def fromFn (port fn : Nat) : Src → Bool
  | .host p f _ _ _ _ => p == port && f == fn
  | _ => false

/-- Takes a function's commands away from it: no result or completion entry of theirs is written any more, and one that still waits for
a domain is gone. -/
def silence (port fn : Nat) (s : State) : State :=
  let quiet (m : TxMsg) : TxMsg := if m.qp ≠ 65535 ∧ m.port = port ∧ s.queueFn port m.qp = fn then { m with qp := 65535 } else m
  { s with
    reqs := Map.mapVals s.reqs fun _ r =>
      { r with
        src := if fromFn port fn r.src then .keeper else r.src, behind := r.behind.filter fun w => !fromFn port fn w.1 },
    pft := { s.pft with conns := Map.mapVals s.pft.conns fun _ c => { c with msgs := c.msgs.map quiet } },
    boot := { s.boot with waiting := s.boot.waiting.filter fun w => !fromFn port fn w.2.1 } }

/-- Aborts one command before its commit point, as ABORT would (R160, R161). A load is given up. -/
def abortOne (i : Nat) (s : State) : State :=
  match Map.find? s.reqs i with
  | none => s
  | some r =>
    if r.status.isSome then s
    else if r.kind = .merge then endMerge i .aborted noneDecided noneDecided s
    else if r.kind = .profile then
      let slots := match s.prof.loading with
        | some (j, k) => if j = i then Map.erase s.prof.slots k else s.prof.slots
        | none => s.prof.slots
      { s with reqs := Map.erase s.reqs i, prof := { s.prof with slots, loading := none } }
    else abortPlain i r s

/-- Disables a function's queue pairs and event queue at once. -/
def dropQueues (port fn : Nat) (s : State) : State :=
  let mine := (Map.keys s.queues).filter fun k => k / 4096 == port && s.queueFn port (k % 4096) == fn
  let one (t : State) (k : Nat) : State :=
    let t1 : State := { t with queues := Map.erase t.queues k }
    t1.setReg (pgHq port 0) 0x074 (withBits (t1.qCfg port (k % 4096)) 23 1 0) (k % 4096)
  let s1 := mine.foldl one s
  let s2 : State := { s1 with eqs := Map.erase s1.eqs (eqKey port fn) }
  s2.setReg (pgHq port 0) 0x090 (withBits (s2.reg (pgHq port 0) 0x090 fn) 16 1 0) fn

/-- Deregisters the regions a function registered, and disables the SRQs it configured. -/
def dropRegions (port fn : Nat) (s : State) : State :=
  let s1 : State := { s with pft := { s.pft with regions := Map.filterKV s.pft.regions fun _ r => !(r.loc == port && r.fn == fn) } }
  let mine := Map.keys (Map.filterKV s1.srqs fun _ q => q.port == port && q.fn == fn)
  let one (t : State) (part : Nat) : State :=
    ({ t with srqs := Map.erase t.srqs part } : State).setReg (pgHq port 0) 0x0AC
      (withBits (t.reg (pgHq port 0) 0x0AC part) 28 1 0) part
  mine.foldl one s1

/-- What R295 does to a function. -/
def stopFn (port fn : Nat) (s : State) : State :=
  let mine := Map.keys (Map.filterKV s.reqs fun _ r => fromFn port fn r.src && r.status.isNone)
  dropRegions port fn (dropQueues port fn (mine.foldl (fun t i => abortOne i t) (silence port fn s)))

/-- FUNCTION_LEVEL_RESET: a mailbox claim of the function is released with it (R313). -/
def resetFn (port fn : Nat) (s : State) : State :=
  let s1 := stopFn port fn s
  if s1.sec.owner = some (port * 0x40 + fn) then { s1 with sec := { s1.sec with owner := none } } else s1

/-- FUNCTION_LEVEL_RESET. -/
def execFunctionLevelReset (port fn : Nat) (s : State) : Host.Outcome State Fault Refusal :=
  ok (whenUp (resetFn port fn) s)

/-- What R295 does to every function of a port. -/
def stopPort (port : Nat) (s : State) : State := (List.range 64).foldl (fun t fn => stopFn port fn t) s

/-! ## Links and PERST (R277, R295) -/

/-- A port is lost: HOST_LINK_DOWN is raised (Table 12-7). -/
def losePort (port : Nat) (s : State) : State := raise (event 3 0 0x0140 (pgHq port 0) port) (stopPort port s)

/-- HOST_LINK_DOWN. -/
def hostLinkDown (port : Nat) (s : State) : State :=
  let x := s.port port
  if !x.linkUp then s
  else losePort port (s.setPort port { x with linkUp := false, speed := 0, width := 0, downSince := s.time })

/-- HOST_LINK_DOWN. -/
def execHostLinkDown (port : Nat) (s : State) : Host.Outcome State Fault Refusal := ok (whenUp (hostLinkDown port) s)

/-- HOST_LINK_UP: a link trains, with its rate code and width. -/
def hostLinkUp (port speed width : Nat) (s : State) : State :=
  let x := s.port port
  if x.linkUp ∨ x.perst then s
  else raise (event 0 0 0x0141 (pgHq port 0) port (speed % 8 + width % 32 * 16))
    (s.setPort port { x with linkUp := true, speed := speed % 8, width := width % 32 })

/-- HOST_LINK_UP. -/
def execHostLinkUp (port speed width : Nat) (s : State) : Host.Outcome State Fault Refusal :=
  ok (whenUp (hostLinkUp port speed width) s)

/-- PERST_ASSERT. -/
def perstAssert (port : Nat) (s : State) : State :=
  let x := s.port port
  if x.perst then s
  else
    let since := if x.linkUp then s.time else x.downSince
    losePort port (s.setPort port { x with linkUp := false, speed := 0, width := 0, downSince := since, perst := true })

/-- PERST_ASSERT. -/
def execPerstAssert (port : Nat) (s : State) : Host.Outcome State Fault Refusal := ok (whenUp (perstAssert port) s)

/-- PERST_DEASSERT: the port is ready at some time within 100 ms, which the spec leaves open (a free value). -/
def perstDeassert (port : Nat) (s : State) : State :=
  let x := s.port port
  if !x.perst then s
  else
    let (n, s1) := s.draw
    s1.setPort port { x with perst := false, readyAt := s.time + Config.freeChoice n % 100000001 }

/-- PERST_DEASSERT. -/
def execPerstDeassert (port : Nat) (s : State) : Host.Outcome State Fault Refusal := ok (whenUp (perstDeassert port) s)

/-- What a function's configuration space says of it (Table 12-1): device and vendor ID, class code and revision ID, subsystem and
subsystem vendor ID. -/
def State.identity (s : State) (fn : Nat) : List Nat :=
  [(if fn = 0 then 0x4820 else 0x4821) * 65536 + 0x1F82, 0x12000000 + (if s.fuses.stepA1 then 1 else 0),
   (if s.fuses.liquid then 2 else 1) * 65536 + 0x1F82]

/-- CONFIGURATION_REQUEST (R277): retried until the port is ready; in PERST nothing answers, and no function that is not offered: PF0
and 63 VFs, in recovery PF0 alone (R377). -/
def configRequest (port fn : Nat) (s : State) : State :=
  let x := s.port port
  if x.perst ∨ 64 ≤ fn ∨ (s.phase = .recovery ∧ fn ≠ 0) then s
  else s.send (.config port fn (if s.time < x.readyAt then none else some (s.identity fn)))

/-- CONFIGURATION_REQUEST. -/
def execConfigurationRequest (port fn : Nat) (s : State) : Host.Outcome State Fault Refusal :=
  ok (whenUp (configRequest port fn) s)

/-! ## The primary (R297, R299) -/

/-- A write reached a port's HQ_HB: one to the primary's clears the latches. -/
def beat (port : Nat) (s : State) : State :=
  let s1 := s.setPort port { s.port port with lastHb := s.time }
  if port = s.primary then { s1 with peerLost := [] } else s1

/-- PRIMARY_LOSS_CHECK, every 1 ms: the link down for 100 ms, or with HB_EN no heartbeat for MISSES × INTERVAL_MS. -/
def primaryLossCheck (s : State) : State :=
  let x := s.port s.primary
  let cfg := s.reg (pgHq 0 0) 0x048
  let down := !x.linkUp && decide (x.downSince + 100000000 ≤ s.time)
  let silent := bitOf cfg 14 && decide (x.lastHb + bitsOf cfg 10 4 * bitsOf cfg 0 10 * 1000000 ≤ s.time)
  if s.peerLost.contains (1 - s.primary) ∨ !(down || silent) then s
  else
    let s1 := hqCause (1 - s.primary) 0 { s with peerLost := (1 - s.primary) :: s.peerLost }
    if down then raise (event 3 0 0x0140 (pgHq s.primary 0) s.primary) s1
    else raise (event 3 0 0x0142 (pgHq s.primary 0) s.primary x.lastHb) s1

/-- PRIMARY_LOSS_CHECK. -/
def execPrimaryLossCheck (s : State) : Host.Outcome State Fault Refusal := ok (whenReady primaryLossCheck s)

/-- A write of HQ_OWNER.HANDOVER (R299), by PF0 of the primary port while the other port's link is up: a REGISTER record of the accepted
write, and then the COMMAND record (Table 13-8). A latched PEER_LOST stays (R297). -/
def handoverPrimary (master page : Nat) (s : State) : State :=
  if master ≠ s.primary * 0x40 ∨ !(s.port (1 - s.primary)).linkUp then s
  else
    let port := if page < 0x018 then 0 else 1
    let old := (if s.primary = port then 1 else 0) + (if s.peerLost.contains port then 2 else 0)
    makePrimary (1 - s.primary) 1
      (logCommand master opClaim 1 s.primary (1 - s.primary) (regRecord master page 0x040 old (old + 4) 0 s))

end Sys2Proof.Machine
end

