-- ==== Sys2Proof/Machine/Partition.lean ====
section
/-! DEFINITION. Partitions and reservations (R33 to R36, R402 to R405, R417 to R419, R423): the commands of the GLB page, the background
release of a deleted partition, and the reservations of the REGN pages. -/
namespace Sys2Proof.Machine

/-! ## Rights and key slots -/

/-- Changes a master's right on a target (R319, R320): one ACCESS record for each master whose right changes. -/
def changeRight (by_ target master r : Nat) (s : State) : State :=
  if s.right master target = r then s
  else
    let s1 : State := { s.setRight master target r with log := { s.log with digestDue := true } }
    logRec by_ 1 target master (s.right master target) r s1

/-- The state of a key slot as a KEY record shows it (R302): 0 EMPTY, 1 DEVICE, 2 DELIVERED. -/
def State.keyState (s : State) (part : Nat) : Nat :=
  match Map.find? s.sec.keys part with
  | some k => if k.delivered then 2 else 1
  | none => 0

/-- Clears a key slot (R305). -/
def clearKey (by_ part : Nat) (s : State) : State :=
  let old := s.keyState part
  let s1 : State := { s with sec := { s.sec with keys := Map.erase s.sec.keys part, rootLost := s.sec.rootLost.filter (· != part) } }
  if old = 0 then s1 else logRec by_ 3 part 0 old 0 (setCause pgSec 2 s1)

/-! ## Partition commands (R417) -/

/-- Shows the end of a partition command: STATUS and INDEX in GLB_PART_CMD, and the cause; OK leaves a REGISTER record. -/
def endPart (master : Nat) (st : Status) (idx : Nat) (s : State) : State :=
  let old := s.reg pgGlb 0x088
  let new := st.code * 2 ^ 16 + idx % 256 * 2 ^ 24
  let s1 := setCause pgGlb 0 (s.setReg pgGlb 0x088 new)
  if st = .ok then regRecord master pgGlb 0x088 old new 0 s1 else s1

/-- UNITS and TENANT of GLB_PART_ARG, ENTRIES of GLB_PART_ARG2, and the partition a master's GLB_PART_SEL names. -/
def State.argUnits (s : State) : Nat := s.field pgGlb 0x080 16 10
def State.argTenant (s : State) : Nat := s.field pgGlb 0x080 0 12
def State.argEntries (s : State) : Nat := s.field pgGlb 0x084 0 15
def State.selPart (s : State) (master : Nat) : Nat := s.sel master pgGlb 0x060 % 256

/-- A partition as CREATE makes it (R417): SHARED, UNIFIED, mirror OFF with KM1 3, STREAM. -/
def Partition.created (tenant units : Nat) : Partition :=
  { state := .active, tenant, flagged := false, strict := false, mirror := 0, km1 := 3, promote := false, units, rsv := 0,
    partner := none, nextSerial := 1, serialsLow := false, serialsOut := false, slots := [], releases := [] }

/-- The lowest FREE partition index. -/
def State.freePart (s : State) : Option Nat := (List.range 256).find? fun p => !Map.has s.parts p

/-- CREATE. -/
def partCreate (master : Nat) (s : State) : State :=
  if s.argUnits < 1 then endPart master .invalidMode 0 s
  else if (s.tenantPart s.argTenant).isSome then endPart master .denied 0 s
  else match s.freePart with
    | none => endPart master .full 0 s
    | some i =>
      if s.freeUnits < s.argUnits then endPart master .full i s
      else
        endPart master .ok i { s with parts := Map.insert s.parts i (Partition.created s.argTenant s.argUnits) }

/-- RESIZE. -/
def partResize (master : Nat) (s : State) : State :=
  let i := s.selPart master
  match s.part? i with
  | none => endPart master .invalidMode i s
  | some p =>
    if p.state ≠ .active ∨ s.argUnits < 1 then endPart master .invalidMode i s
    else if s.freeUnits < s.argUnits - p.units then endPart master .full i s
    else if (List.range 16).any fun r => decide (shareBlocks s.argUnits < s.partBlocks i r) then endPart master .busy i s
    else endPart master .ok i (s.updPart i fun x => { x with units := s.argUnits })

/-- DELETE (R418): the partition is DELETING, so that no request reaches it any more. -/
def partDelete (master : Nat) (s : State) : State :=
  let i := s.selPart master
  if s.partActive i then endPart master .ok i (s.updPart i fun x => { x with state := .deleting })
  else endPart master .invalidMode i s

/-- RESERVE. -/
def partReserve (master : Nat) (s : State) : State :=
  let i := s.selPart master
  match s.part? i with
  | none => endPart master .invalidMode i s
  | some p =>
    if p.state ≠ .active ∨ !p.strict then endPart master .invalidMode i s
    else if 12288 < s.strictRsv - p.rsv + s.argEntries then endPart master .invalidMode i s
    else endPart master .ok i (s.updPart i fun x => { x with rsv := s.argEntries })

/-- A write of GLB_PART_CMD.OP; others are ignored. -/
def partCommand (master op : Nat) (s : State) : State :=
  if op = 1 then partCreate master s
  else if op = 2 then partResize master s
  else if op = 3 then partDelete master s
  else if op = 4 then partReserve master s
  else s

/-! ## PART_FREED (R418) -/

/-- Removes everything a partition holds: its conversations with their streams, its pages in every tier, mask objects and
directory entries. -/
def dropPartObjects (part : Nat) (s : State) : State :=
  let pages := s.pages.filter fun kv => kv.2.part == part
  let s1 := pages.foldl (fun t kv => freeGrant kv.1 (freeNand kv.2 t)) s
  let convs := Map.filterKV s1.convs fun _ c => c.part == part
  let dir := Map.filterKV s1.mex.dir fun _ e => e.part != part
  { s1 with
    pages := s1.pages.filter fun kv => kv.2.part != part,
    convs := Map.filterKV s1.convs fun _ c => c.part != part,
    streams := Map.filterKV s1.streams fun k _ => !Map.has convs (k / 256),
    masks := Map.filterKV s1.masks fun _ m => m.part != part,
    mex := { s1.mex with dir, keys := Map.filterKV s1.mex.keys fun k _ => Map.has dir k } }

/-- Closes a partition's connections. -/
def closePartConns (part : Nat) (s : State) : State :=
  let mine := Map.keys (Map.filterKV s.pft.conns fun _ c => !c.keeper && c.part == part && c.state != .closed)
  mine.foldl (fun t i => match Map.find? t.pft.conns i with
    | some c =>
      if c.state = .opened then settleClosing i (t.setConn i { c with state := .closing })
      else if c.state = .error then t.setConn i { c with state := .closed, closedAt := t.time }
      else t
    | none => t) s

/-- Whether a partition still has a connection that is not CLOSED. -/
def State.partConnected (s : State) (part : Nat) : Bool :=
  s.pft.conns.any fun kv => !kv.2.keeper && kv.2.part == part && kv.2.state != .closed

/-- Disables a partition's SRQ and unmaps its functions; each change is logged with master 0x080. -/
def unmapPart (part : Nat) (s : State) : State :=
  let offSrq (t : State) (port : Nat) : State :=
    let old := t.reg (pgHq port 0) 0x0AC part
    if bitOf old 28 then
      regRecord 0x080 (pgHq port 0) 0x0AC old (withBits old 28 1 0) part
        (t.setReg (pgHq port 0) 0x0AC (withBits old 28 1 0) part)
    else t
  let offFn (t : State) (k : Nat) : State :=
    if t.fnPart (k / 64) (k % 64) = some part then
      let old := t.reg (pgHq (k / 64) 0) 0x054 (k % 64)
      regRecord 0x080 (pgHq (k / 64) 0) 0x054 old (withBits old 8 1 0) (k % 64)
        (t.setReg (pgHq (k / 64) 0) 0x054 (withBits old 8 1 0) (k % 64))
    else t
  let s1 : State := [0, 1].foldl offSrq { s with srqs := Map.erase s.srqs part }
  (List.range 128).foldl offFn s1

/-- What a CLEAR of a reservation leaves. -/
def eraseRsv (region part : Nat) (s : State) : State := s.updRegion region fun r => { r with rsv := Map.erase r.rsv part }

/-- Forgets the versions and root counters of a partition's metadata (R310). -/
def dropMeta (part : Nat) (s : State) : State :=
  let keep (k _ : Nat) : Bool := k / 2 ^ 40 != part
  { s with sec := { s.sec with versions := Map.filterKV s.sec.versions keep, roots := Map.filterKV s.sec.roots keep } }

/-- Clears a partition's reservations in every region, logged with master 0x080. -/
def clearRsvs (part : Nat) (s : State) : State :=
  (List.range 16).foldl (fun t r =>
    if Map.has (t.region r).rsv part then
      let old := t.reg (pgRegn r) 0x06C
      regRecord 0x080 (pgRegn r) 0x06C old old part (eraseRsv r part t)
    else t) s

/-- Resets the rights on a partition's target to Table 13-6. -/
def resetRights (part : Nat) (s : State) : State :=
  let target := partTarget part
  let mine := (Map.keys s.rights).filter fun k => k / 1024 == target
  mine.foldl (fun t k => changeRight 0x080 target (k % 1024) (resetRight (k % 1024) target) t) s

/-- Whether nothing of a DELETING partition is in flight any more. -/
def State.partQuiet (s : State) (part : Nat) : Bool :=
  (!s.reqs.any fun kv => kv.2.part == some part) &&
  (s.pages.all fun kv => kv.2.part != part || (kv.2.readers == [] && kv.2.holders == 0))

/-- What is left of step 3 of R418 once nothing is in flight and the connections are closed, and the FREE index. -/
def freePart (part : Nat) (p : Partition) (s : State) : State :=
  let s1 := sendRelease part (p.tenant * 2 ^ 52) s
  let s2 := dropMeta part (returnGrants (dropPartObjects part s1))
  let s3 := clearRsvs part (unmapPart part s2)
  let s4 := resetRights part (clearKey 0x080 part s3)
  let tier : Tier := { s4.tier with
    suspended := Map.erase s4.tier.suspended part, relieving := s4.tier.relieving.filter fun q => q != part }
  setCause pgGlb 1 { s4 with parts := Map.erase s4.parts part, tier }

/-- PART_FREED: the background release of a deleted partition (R418). Its connections close as Table 10-4 lets them; once they are
CLOSED the rest is released and the index is FREE. -/
def partFreed (part : Nat) (s : State) : State :=
  match s.part? part with
  | none => s
  | some p =>
    if p.state ≠ .deleting ∨ !s.partQuiet part then s
    else
      let s1 := closePartConns part s
      if s1.partConnected part then s1 else freePart part p s1

/-- PART_FREED. -/
def execPartFreed (part : Nat) (s : State) : Host.Outcome State Fault Refusal := ok (whenReady (partFreed part) s)

/-! ## GLB_PART_MODE (R193, R396, R405, R419) -/

/-- From UNIFIED to FLAGGED: every stream's allocation flag is the tier that holds its last sealed page (R193). -/
def setFlags (part : Nat) (s : State) : State :=
  let last (st : Stream) : Option Nat := st.entries.foldl (fun b kv => match Map.find? s.pages kv.2 with
    | some p => if p.state != .opened && p.state != .absent then some p.tier else b
    | none => b) none
  let one (k : Nat) (st : Stream) : Stream :=
    match Map.find? s.convs (k / 256) with
    | some c => if c.part = part then (match last st with | some t => { st with flag := t } | none => st) else st
    | none => st
  { s with streams := Map.mapVals s.streams one }

/-- A write of GLB_PART_MODE: the partition's new settings. -/
def partMode (part v : Nat) (s : State) : State :=
  match s.part? part with
  | none => s
  | some p =>
    let s1 := if bitOf v 0 ∧ !p.flagged then setFlags part s else s
    let s2 := if p.strict ∧ !bitOf v 1 then
        (List.range 16).foldl (fun t r => eraseRsv r part t) (s1.updPart part fun x => { x with rsv := 0 })
      else s1
    s2.updPart part fun x =>
      { x with flagged := bitOf v 0, strict := bitOf v 1, mirror := bitsOf v 2 2, km1 := bitsOf v 4 4, promote := bitOf v 8 }

/-! ## Reservations (R403, R423) -/

/-- FRAME of a region. -/
def State.frame (s : State) (region : Nat) : Nat := s.field (pgRegn region) 0x040 0 9

/-- Whether two runs of slots overlap. -/
def slotsMeet (a b : Rsv) : Bool := decide (0 < a.count ∧ 0 < b.count ∧ a.first < b.first + b.count ∧ b.first < a.first + a.count)

/-- The limits of R403 under a set of reservations. -/
def State.rsvLimits (s : State) (region frame : Nat) (rs : Map Rsv) : Bool :=
  let held : Nat := rs.foldl (fun n kv => n + kv.2.count) 0
  let free := ((List.range 28).filter fun p => (s.pod region p).st == 0 && !rs.any fun kv => bitOf kv.2.pods p).length
  let gather : Nat := rs.foldl (fun n kv => n + kv.2.gather) 0
  decide (held ≤ frame ∧ frame ≤ 8 * (frame - held) ∧ 2 ≤ free ∧ gather + 64 ≤ 512)

/-- The checks of Table 18-9 for a new reservation. -/
def State.rsvCheck (s : State) (region part : Nat) (set : Bool) (x : Rsv) : Bool :=
  let rest := Map.erase (s.region region).rsv part
  let okPart : Bool := match s.part? part with
    | some p => p.state == .active && (p.strict || !set)
    | none => false
  let podOk (k : Nat) : Bool := !bitOf x.pods k || ((s.pod region k).st == 0 && !rest.any fun kv => bitOf kv.2.pods k)
  okPart && ((List.range 28).all podOk) && decide (x.first + x.count ≤ s.frame region) && !(rest.any fun kv => slotsMeet x kv.2)
    && s.rsvLimits region (s.frame region) (if set then Map.insert rest part x else rest)

/-- REGN_RSV_CMD: SET (1) or CLEAR (2) of the reservation of the partition that the master's REGN_RSV_SEL names. -/
def rsvCommand (master region op : Nat) (s : State) : State :=
  let page := pgRegn region
  let part := s.sel master page 0x050 % 256
  let a1 := s.reg page 0x064
  let arg : Rsv := { pods := s.field page 0x060 0 28, first := bitsOf a1 0 9, count := bitsOf a1 16 9, gather := s.field page 0x068 0 10 }
  let x : Rsv := if op = 1 then arg else ⟨0, 0, 0, 0⟩
  if op ≠ 1 ∧ op ≠ 2 then s
  else
    let good := s.rsvCheck region part (decide (op = 1)) x
    let old := s.reg page 0x06C
    let new := if good then 0 else Status.invalidMode.code * 2 ^ 16
    let s1 := setCause page 0 (s.setReg page 0x06C new)
    if good then
      let s2 := s1.updRegion region fun r => { r with rsv := Map.put r.rsv part x ⟨0, 0, 0, 0⟩ }
      regRecord master page 0x06C old new part s2
    else s1

end Sys2Proof.Machine
end

