-- ==== Sys2Proof/Machine/FlashMedia.lean ====
section
/-! DEFINITION. The flash media controller (R208 to R232): reads and their recovery, the journal, map segments, garbage collection,
refresh, wear levelling, retirement, FORMAT, OFFLINE and the mounts. -/
namespace Sys2Proof.Machine

/-! ## Retirement (R212, R227) -/

/-- Why a block is retired, as its RETIRE record gives it (log entry 144: no encoding is stated): an uncorrectable codeword (R212), or a
verification that failed at a mount (R229). -/
def causeUncorrectable : Nat := 1
def causeScan : Nat := 2

/-- Retires a block: it is replaced from its target's reserve; three quarters used set RESERVE_LOW, and with none left the tier enters
WORN. -/
def retireBlock (cause b : Nat) (s : State) : State :=
  let f := s.flash
  if (f.block b).bad then s
  else
    let t := blockTarget b
    let used := Map.getD f.reserveUsed t 0
    let f1 := (f.updBlock b fun x => { x with bad := true, refresh := false, retire := false, erasing := false, openB := false }).journal
      .retire b cause
    let s1 := setCause pgFlm 6 ((s.setFlash f1).bump pgFlm 0x0B4)
    if used < f.reserve then
      let s2 := s1.setFlash { s1.flash with reserveUsed := Map.insert s1.flash.reserveUsed t (used + 1) }
      if 4 * used < 3 * f.reserve ∧ 3 * f.reserve ≤ 4 * (used + 1) then
        setCause pgFlm 4 (raise (event Config.reserveLow.1 4 Config.reserveLow.2 pgFlm t) s2)
      else s2
    else if f.st = 1 then setCause pgFlm 3 (s1.setFlash { s1.flash with st := 2 })
    else s1

/-! ## Uncorrectable codewords (R212) -/

/-- Whether a NAND copy of `n` bytes has bytes in codeword `cw` of logical unit `u`: four codewords of 4,096 bytes to a unit (R210), and the
form starts at the locator's offset (R216). -/
def Locator.hits (l : Locator) (n u cw : Nat) : Bool :=
  let start := l.unit * unitSize + l.off * 16
  let from_ := u * unitSize + cw * 4096
  decide (start < from_ + 4096 ∧ from_ < start + n)

/-- Queries that are reading a page end with INTEGRITY (R212, R81). -/
def failReaders (h : Nat) (s : State) : State :=
  let hit (r : Req) : Option Nat := (r.items.find? fun it => it.page == h && it.state != .waiting && it.state != .done && it.state != .omitted).map (·.entry)
  let mine := Map.filterKV s.reqs fun _ r => r.kind == .query && r.status.isNone && (hit r).isSome
  mine.foldl (fun t kv => failQuery kv.1 .integrity ((hit kv.2).getD 0) 0 t) s

/-- A page whose NAND copy is uncorrectable (R212): a CACHE page goes to ABSENT, a RETAINED one is restored. -/
def nandLost (h : Nat) (s : State) : State :=
  match Map.find? s.pages h with
  | none => s
  | some p =>
    let s1 := failReaders h s
    let f := match p.loc with | some l => s1.flash.free l | none => s1.flash
    let s2 := (s1.setFlash f).updPage h fun q =>
      let q1 := if q.state = .migrating then q.freeHbm else q
      { q1 with loc := none, lend := none, srcHeld := false }
    wakeItems h (if p.retained then beginRestore h s2 else toAbsent h s2)

/-- A shadow that cannot be read is freed. -/
def shadowLost (h : Nat) (s : State) : State :=
  match Map.find? s.pages h with
  | some p => match p.shadow with
    | some l => (s.setFlash (s.flash.free l)).updPage h fun q => { q with shadow := none }
    | none => s
  | none => s

/-- An uncorrectable codeword of a unit in block `b`: what happens to the pages with bytes in it, and the block's retirement once its other
units have been copied out. -/
def uncorrectable (u cw b : Nat) (s : State) : State :=
  let s1 := setCause pgFlm 5 (s.bump pgFlm 0x0B0)
  let s2 := s1.setFlash (s1.flash.updBlock b fun x => { x with retire := true, refresh := true })
  let bytes (p : Page) : Nat := nandBytes (s.pageGeo p) p.fmt
  let shadows := s2.pages.filter fun kv => match kv.2.shadow with | some l => l.hits (bytes kv.2) u cw | none => false
  let copies := s2.pages.filter fun kv => match kv.2.loc with | some l => l.hits (bytes kv.2) u cw | none => false
  let s3 := copies.foldl (fun t kv => nandLost kv.1 t) (shadows.foldl (fun t kv => shadowLost kv.1 t) s2)
  let moving := s3.flash.moves.any fun kv => kv.2.block == b
  if s3.flash.unitsIn b = [] ∧ !moving then retireBlock causeUncorrectable b s3 else s3

/-! ## Relocating a block (R223 to R226) -/

/-- Counts bytes programmed by collection, refresh and wear levelling. -/
def countGc (units : Nat) (s : State) : State := countUp pgFlm 0x098 (units * unitSize) s

/-- What follows the last mapped unit of a relocated block: it waits for its erase, or is retired. -/
def relocated (b : Nat) (s : State) : State :=
  if (s.flash.block b).retire then retireBlock causeUncorrectable b s
  else s.setFlash (s.flash.updBlock b fun x => { x with erasing := true, refresh := false })

/-- Steps 1 and 2 of R223: a block's valid units are copied, into the channel's open block or into `target`, and their MAP records are
written. Units that turn out uncorrectable, by codeword in `bad`, are not copied; R212 is for them (R225). Nothing happens where the
channel has no block to copy into. -/
def startMove (b : Nat) (target : Option Nat) (bad : List (Nat × Nat)) (s : State) : State :=
  let ch := blockChannel b
  let f := s.flash.updBlock b fun x => { x with openB := false }
  let units := f.unitsIn b
  let good := units.filter fun u => !bad.any fun x => x.1 == u
  let copy (acc : Option (List (Nat × Nat) × Flash)) (u : Nat) : Option (List (Nat × Nat) × Flash) := acc.bind fun x =>
    let r := match target with
      | some t => if (x.2.block t).next < x.2.pagesPerBlock then some (x.2.programIn t u) else none
      | none => x.2.program ch false u
    r.map fun y => (x.1 ++ [(u, y.1)], y.2.journal .map u y.1)
  match good.foldl copy (some ([], f)) with
  | none => s
  | some (copied, g) =>
    if units = [] then relocated b (s.setFlash g)
    else
      let s1 := countGc copied.length (s.setFlash { g with moves := Map.insert g.moves ch ⟨b, copied⟩ })
      (bad.filter fun x => units.contains x.1 && decide (x.2 < 4)).foldl (fun t x => uncorrectable x.1 x.2 b t) s1

/-- Whether the MAP records of a relocation's copies are durable: its step 3 has ended. -/
def Flash.moveDurable (f : Flash) (m : Move) : Bool :=
  !f.jpending.any fun r => r.kind == .map && r.c == 0 && m.copied.contains (r.a, r.b)

/-- Maps a unit to its copy, unless it has been released or moved meanwhile: its copy is invalid then (R225). -/
def Flash.remap (f : Flash) (from_ u pun : Nat) : Flash :=
  match Map.find? f.map u with
  | none => f
  | some e =>
    if e.block ≠ from_ then f
    else
      let nb := blockOfPun f pun
      let f1 := (f.updBlock e.block fun x => { x with valid := x.valid - 1 }).updBlock nb fun x => { x with valid := x.valid + 1 }
      let at_ (x : Nat × Nat) : Nat × Nat := if x.2 = e.pun then (x.1, pun) else x
      { f1 with placed := Map.adjust f1.placed u (·.map at_), map := Map.insert f1.map u { e with pun, block := nb } }.touchSeg u true

/-- The query items that stream a page with a unit among `us` from NAND, and the pages with one that are being promoted: the reads that
hold its old mapping (R225). -/
def State.readsOf (s : State) (us : List Nat) : List (Nat × Nat) × List Nat :=
  let inside (l : Option Locator) : Bool := match l with
    | some x => us.any fun u => decide (x.unit ≤ u ∧ u < x.unit + x.units)
    | none => false
  let old (h : Nat) : Bool := match Map.find? s.pages h with | some p => inside p.loc | none => false
  let items := s.reqs.flatMap fun kv => ((List.range kv.2.items.length).filter fun k => match kv.2.items[k]? with
    | some it => it.state == .queued && it.streamed && old it.page
    | none => false).map fun k => (kv.1, k)
  (items, Map.keys (Map.filterKV s.pages fun _ p => p.state == .migrating && p.dest == 0 && p.srcTier == 1 && inside p.loc))

/-- Whether a read that resolved a unit to a block before it was moved still runs. -/
def State.stillRead (s : State) (b : Nat) : Bool :=
  let x := s.flash.block b
  (x.readers.any fun m => match (Map.find? s.reqs m.1).bind fun r => r.items[m.2]? with
    | some it => it.state == .queued && it.streamed
    | none => false)
  || x.movers.any fun h => match Map.find? s.pages h with
    | some p => p.state == .migrating && p.dest == 0 && p.srcTier == 1
    | none => false

/-- Step 4 of R223, once step 3 has ended: the map entries are updated, and the block's erase waits for the reads that hold a mapping into
it. -/
def finishMove (ch : Nat) (s : State) : State :=
  match Map.find? s.flash.moves ch with
  | none => s
  | some m =>
    if !s.flash.moveDurable m then s
    else
      let held := s.readsOf (m.copied.map (·.1))
      let f := m.copied.foldl (fun g x => g.remap m.block x.1 x.2) { s.flash with moves := Map.erase s.flash.moves ch }
      relocated m.block (s.setFlash (f.updBlock m.block fun x => { x with readers := held.1, movers := held.2 }))

/-- Takes a channel's relocation one step on: the one that runs, or a new one of block `b`. -/
def stepMove (ch : Nat) (next : Option Nat) (target : Option Nat) (bad : List (Nat × Nat)) (s : State) : State :=
  if Map.has s.flash.moves ch then finishMove ch s
  else match next with | some b => startMove b target bad s | none => s

/-! ## FLASH_READ (R211 to R213) -/

/-- Bit errors of a codeword that hard-decision decoding always corrects (R210). -/
def hardBits : Nat := 64

/-- Whether hard-decision decoding succeeds on `e` bit errors: always up to 64; above, the outcome is not stated and is free. -/
def hardDecodes (draw e : Nat) : Bool := decide (e ≤ hardBits) || Config.freeChoice (draw + e) % 2 == 1

/-- The first of the reads of Table 9-2's stages 1 and 2 that decodes: its level, 0 for the normal read. `errs` are the bit errors of the
codeword at each level, the last of them at further ones. -/
def decodeLevel (draw levels : Nat) (errs : List Nat) : Option Nat :=
  (List.range (levels + 1)).find? fun k => hardDecodes draw (errs.getD k (errs.getLastD 0))

/-- FLASH_READ: one codeword of a logical unit has been read, going through Table 9-2; `soft` says whether soft-decision decoding, where it
comes to that, succeeds. -/
def flashRead (u cw : Nat) (errs : List Nat) (soft : Bool) (s : State) : State :=
  match Map.find? s.flash.map u with
  | none => s
  | some e =>
    if !s.flash.serving then s
    else
      let levels := s.field pgFlm 0x074 0 5
      let (n, s0) := s.draw
      let found := decodeLevel n levels errs
      let first := found == some 0
      let corrected := match found with | some k => errs.getD k (errs.getLastD 0) | none => 0
      let s1 := countUp pgFlm 0x088 4096 s0
      let s2 := if !first ∧ levels ≠ 0 then s1.bump pgFlm 0x0A8 else s1
      let s3 := if found = none then s2.bump pgFlm 0x0AC else s2
      let old := s3.flash.block e.block
      let worn := !first || decide (s.field pgFlm 0x06C 0 7 < corrected ∨ s.reg pgFlm 0x070 ≤ old.reads + 1)
      let f := (s3.flash.updBlock e.block fun x => { x with reads := x.reads + 1, refresh := x.refresh || worn }).touchSeg u false
      let s4 := s3.setFlash f
      if found = none ∧ !soft then uncorrectable u cw e.block s4 else s4

/-- FLASH_READ. -/
def execFlashRead (unit cw first : Nat) (later : List Nat) (soft : Bool) (s : State) : Host.Outcome State Fault Refusal :=
  ok (whenReady (whenOpen 19 fun t => if cw < 4 then flashRead unit cw (first :: later) soft t else t) s)

/-! ## The journal and the map (R219, R220) -/

/-- JOURNAL_COMMIT. -/
def journalCommit (s : State) : State := if s.flash.serving ∧ s.flash.jpending ≠ [] then s.setFlash s.flash.commit else s

/-- JOURNAL_COMMIT. -/
def execJournalCommit (s : State) : Host.Outcome State Fault Refusal := ok (whenReady (whenOpen 19 journalCommit) s)

/-- MAP_SEGMENT_WRITEBACK: a dirty segment goes to a new place in the map area, and the place is journalled. -/
def segWriteback (seg : Nat) (s : State) : State :=
  let f := s.flash
  if !f.serving ∨ !Map.has f.segDirty seg then s else s.setFlash (f.writeSeg seg)

/-- MAP_SEGMENT_WRITEBACK. -/
def execMapSegmentWriteback (seg : Nat) (s : State) : Host.Outcome State Fault Refusal := ok (whenReady (whenOpen 19 (segWriteback seg)) s)

/-! ## GARBAGE_COLLECTION, BLOCK_ERASE, REFRESH, WEAR_LEVEL (R213, R222 to R226) -/

/-- GARBAGE_COLLECTION: a channel collects from the fall of its free blocks below LOW until they reach HIGH; the relocation of a block goes
one step of R223 on. -/
def collect (ch : Nat) (bad : List (Nat × Nat)) (s : State) : State :=
  let f := s.flash
  let free := f.channelFree ch
  let low := s.field pgFlm 0x064 0 8
  let high := s.field pgFlm 0x064 8 8
  if !f.serving then s
  else if Map.has f.moves ch then finishMove ch s
  else if high ≤ free then s.setFlash { f with collecting := f.collecting.filter (· != ch) }
  else if !f.collecting.contains ch ∧ low ≤ free then s
  else
    let s1 := s.setFlash { f with collecting := if f.collecting.contains ch then f.collecting else f.collecting ++ [ch] }
    stepMove ch (f.victim ch) none bad s1

/-- GARBAGE_COLLECTION. -/
def execGarbageCollection (copying : Copying) (s : State) : Host.Outcome State Fault Refusal :=
  ok (whenReady (whenOpen 19 (collect copying.place copying.bad)) s)

/-- BLOCK_ERASE: an old block none of whose units is mapped, and into which no read holds a mapping (R225), is erased, with its ERASE
record. -/
def blockErase (b : Nat) (s : State) : State :=
  let f := s.flash
  let x := f.block b
  if !f.serving ∨ !x.erasing ∨ f.unitsIn b ≠ [] ∨ s.stillRead b then s
  else
    let n := x.erases + 1
    let f1 := f.updBlock b fun y =>
      { y with erases := n, reads := 0, next := 0, valid := 0, free := true, erasing := false, refresh := false, isMap := false,
               readers := [], movers := [] }
    let f2 : Flash := { f1 with units := Map.filterKV f1.units fun pun _ => blockOfPun f pun != b }
    countUp pgFlm 0x0A0 1 (s.setFlash (f2.journal .erase b (f.erases0 + n)))

/-- BLOCK_ERASE. -/
def execBlockErase (block : Nat) (s : State) : Host.Outcome State Fault Refusal := ok (whenReady (whenOpen 19 (blockErase block)) s)

/-- REFRESH: a queued block's valid units are relocated. -/
def refreshBlock (b : Nat) (bad : List (Nat × Nat)) (s : State) : State :=
  let x := s.flash.block b
  let ch := blockChannel b
  match Map.find? s.flash.moves ch with
  | some m => if s.flash.serving ∧ m.block = b then finishMove ch s else s
  | none =>
    if !s.flash.serving ∨ !x.refresh ∨ x.bad ∨ x.free ∨ x.erasing ∨ x.isMap ∨ s.flash.unsettled b then s
    else stepMove ch (some b) none bad s

/-- REFRESH. -/
def execRefresh (copying : Copying) (s : State) : Host.Outcome State Fault Refusal :=
  ok (whenReady (whenOpen 19 (refreshBlock copying.place copying.bad)) s)

/-- Erase count of a block. -/
def Flash.eraseCount (f : Flash) (b : Nat) : Nat := f.erases0 + (f.block b).erases

/-- Lowest and highest erase counts among good blocks of those a test allows: a block without an entry has been erased only by
formats. -/
def Flash.eraseSpan (f : Flash) (p : Nat → Bool) (total : Nat) : Nat × Nat :=
  let listed := f.blocks.filter fun kv => p kv.1
  let counts := (listed.filter fun kv => !kv.2.bad).map fun kv => f.erases0 + kv.2.erases
  let all := if listed.length < total then f.erases0 :: counts else counts
  match all with
  | [] => (0, 0)
  | c :: cs => (cs.foldl min c, cs.foldl max c)

/-- The blocks between which wear levelling moves data: the least-erased one that holds data, and the most-erased free one; none
unless the second has been erased more often. -/
def Flash.wearPair (f : Flash) (ch : Nat) : Option (Nat × Nat) :=
  let least := (f.collectable ch).foldl (fun (b : Option (Nat × Block)) kv => match b with
    | some x => if kv.2.erases < x.2.erases then some kv else b
    | none => some kv) none
  let most := (f.blocks.filter fun kv => blockChannel kv.1 == ch && kv.2.free && !kv.2.bad).foldl
    (fun (b : Option (Nat × Block)) kv => match b with
      | some x => if x.2.erases < kv.2.erases then some kv else b
      | none => some kv) none
  match least, most with
  | some x, some y => if y.2.erases ≤ x.2.erases then none else some (x.1, y.1)
  | _, _ => none

/-- WEAR_LEVEL: with a spread above FLM_WL.SPREAD, the least-erased block that holds data moves onto the most-erased free block. -/
def wearLevel (ch : Nat) (bad : List (Nat × Nat)) (s : State) : State :=
  let f := s.flash
  let span := f.eraseSpan (fun b => blockChannel b == ch) (f.ces * f.targetBlocks)
  if !f.serving then s
  else if Map.has f.moves ch then finishMove ch s
  else if span.2 - span.1 ≤ s.field pgFlm 0x05C 0 11 then s
  else match f.wearPair ch with
    | none => s
    | some (x, y) => startMove x (some y) bad s

/-- WEAR_LEVEL. -/
def execWearLevel (copying : Copying) (s : State) : Host.Outcome State Fault Refusal :=
  ok (whenReady (whenOpen 19 (wearLevel copying.place copying.bad)) s)

/-- ZQ_CALIBRATION: SHORT, every 100 ms per target (channel × 8 + chip enable). -/
def zqCalibrate (t : Nat) (s : State) : State :=
  let f := s.flash
  let due : Bool := match Map.find? f.calibrated t with | some k => decide (k + 100000000 ≤ s.time) | none => true
  if 128 ≤ t ∨ f.ces ≤ t % 8 ∨ !due then s else s.setFlash { f with calibrated := Map.insert f.calibrated t s.time }

/-- ZQ_CALIBRATION. -/
def execZqCalibration (target : Nat) (s : State) : Host.Outcome State Fault Refusal := ok (whenReady (whenOpen 19 (zqCalibrate target)) s)

/-! ## FORMAT and OFFLINE (R231, R232, Table 9-6) -/

/-- STATUS of FLM_CMD. -/
def flmStatus (st : Status) (s : State) : State := s.setReg pgFlm 0x058 (st.code * 2 ^ 16)

/-- Whether a page or shadow lies in NAND. -/
def State.nandHeld (s : State) : Bool := s.pages.any fun kv => kv.2.loc.isSome || kv.2.shadow.isSome

/-- FORMAT: the format record is written last, so that there is none while it runs. -/
def formatCmd (master : Nat) (s : State) : State :=
  let f := s.flash
  if s.right master pgFlm < 3 then flmStatus .denied s
  else if f.st ≠ 0 then flmStatus .invalidMode s
  else if f.mounting ∨ f.formatting then flmStatus .busy s
  else s.setFlash { f with formatting := true, formatted := false }

/-- OFFLINE. -/
def offlineCmd (s : State) : State :=
  let f := s.flash
  if f.mounting ∨ f.formatting ∨ s.nandHeld then flmStatus .busy s
  else flmStatus .ok (s.setFlash { f with st := 0, map := [], placed := [], pack := [], queuedUnits := [], moves := [] })

/-- A write of FLM_CMD.OP; other values are ignored. -/
def flmCommand (master op : Nat) (s : State) : State :=
  if op = 1 then formatCmd master s else if op = 2 then offlineCmd s else s

/-- The first good blocks of a channel, by number. -/
def Flash.goodBlocks (f : Flash) (ch n : Nat) : List Nat :=
  (((List.range ((f.blocks.length + n + 1) * 8)).map fun k => ch + 16 * k).filter fun b => f.hasBlock b && !(f.block b).bad).take n

/-- Writes every map segment into map blocks (R217): channel `g mod 16` takes segment `g`, in its first good blocks (log entry 25). -/
def Flash.buildMap (f : Flash) : Flash :=
  (List.range 16).foldl (fun g ch =>
    let segs := (f.segCount + 15 - ch) / 16
    let bs := f.goodBlocks ch (ceilDiv segs (max 1 f.pagesPerBlock))
    let fill (h : Flash) (k : Nat) : Flash :=
      let n := min f.pagesPerBlock (segs - k * f.pagesPerBlock)
      h.updBlock (bs.getD k 0) fun x => { x with free := false, isMap := true, valid := n, next := n, openB := decide (n < f.pagesPerBlock) }
    (List.range bs.length).foldl fill { g with mapHome := Map.insert g.mapHome ch bs }) f

/-- FORMAT_COMPLETE: with the factory bad-block marks it read, every good block is erased, the reserves stand anew, and the map is written.
A block that was to be retired is not good. -/
def formatComplete (bad : List Nat) (s : State) : State :=
  let f := s.flash
  if !f.formatting then s
  else
    let fresh (x : Block) : Block := { Block.initial with erases := x.erases, bad := x.bad || x.retire }
    let kept := Map.mapVals f.blocks fun _ x => fresh x
    let blocks := bad.foldl (fun m b => Map.insert m b { (Map.getD m b Block.initial) with bad := true }) kept
    let badNow := Map.count blocks (·.bad)
    let g : Flash := { f with
      st := 1, formatted := true, formatting := false, worn := false, closed := false, opPct := s.field pgFlm 0x054 0 5, factoryBad := bad,
      blocks, map := [], pack := [], queuedUnits := [], units := [], mapHome := [], segDir := [], segDurable := [], segSram := [],
      segHbm := [], segDirty := [], jpending := [], jdurable := [], reserveUsed := [], placed := [], collecting := [], moves := [],
      erases0 := f.erases0 + 1, badAtFormat := badNow }
    countUp pgFlm 0x0A0 (16 * f.ces * f.targetBlocks - badNow) (setCause pgFlm 2 (flmStatus .ok (s.setFlash g.buildMap)))

/-- FORMAT_COMPLETE. -/
def execFormatComplete (bad : List Nat) (s : State) : Host.Outcome State Fault Refusal := ok (whenReady (formatComplete bad) s)

/-! ## Mounts (R229, R230) -/

/-- Sets FLUSH_INCOMPLETE where the journal does not end in CLOSED; the blocks that failed verification are retired. -/
def mountScan (failed : List Nat) (s : State) : State :=
  if s.flash.closed then s else setCause pgFlm 7 (failed.foldl (fun t b => retireBlock causeScan b t) s)

/-- COLD_MOUNT_COMPLETE: the segment directory is loaded as the durable journal has it, every logical unit is released, erase counts, retired
blocks and reserves are kept, and so is the recorded state; a failed mount leaves the tier OFFLINE. A block that an uncorrectable codeword
had marked holds no valid unit any more and is retired (R212). -/
def coldMountComplete (good : Bool) (failed : List Nat) (s : State) : State :=
  let f := s.flash
  if !f.mounting ∨ f.st ≠ 0 then s
  else if !good then setCause pgFlm 1 (s.setFlash { f with mounting := false })
  else
    let empty (x : Block) : Block := if x.isMap then { x with openB := false } else { x with valid := 0, openB := false }
    let g : Flash := { f with
      mounting := false, st := if f.worn then 2 else 1, map := [], placed := [], pack := [], queuedUnits := [], segDir := f.segDurable,
      segSram := [], segHbm := [], segDirty := [], jpending := [], buffered := 0, collecting := [], moves := [],
      blocks := Map.mapVals f.blocks fun _ x => empty x }
    let marked := Map.keys (Map.filterKV g.blocks fun _ x => x.retire && !x.bad)
    let s1 := marked.foldl (fun t b => retireBlock causeUncorrectable b t) (setCause pgFlm 0 (mountScan failed (s.setFlash g)))
    s1.setFlash { s1.flash with closed := false }

/-- COLD_MOUNT_COMPLETE. -/
def execColdMountComplete (ok_ : Bool) (failed : List Nat) (s : State) : Host.Outcome State Fault Refusal :=
  ok (whenReady (coldMountComplete ok_ failed) s)

/-- Migrations into NAND that run, with their records not durable. -/
def State.undurable (s : State) : List Nat :=
  Map.keys (Map.filterKV s.pages fun _ p => p.state == .migrating && p.dest == 1 && !p.restoring && (match p.loc with
    | some l => !s.flash.durable l
    | none => true))

/-- What a reset finds of a relocation (Table 9-4): with its records durable the replay applies the new mapping, and the old block is stale;
without, the old mapping stands and the copies are invalid. -/
def settleMoves (s : State) : State :=
  let s1 := (Map.keys s.flash.moves).foldl (fun t ch => finishMove ch t) s
  let lost := s1.flash.moves.flatMap fun kv => kv.2.copied
  s1.setFlash { s1.flash with
    moves := [], jpending := s1.flash.jpending.filter fun r => !(r.kind == .map && r.c == 0 && lost.contains (r.a, r.b)) }

/-- A block whose erase a reset left without a durable ERASE record is erased again before use, and counted once (Table 9-4). -/
def eraseAgain (s : State) : State :=
  let again (f : Flash) (r : JRec) : Flash :=
    if r.kind = .erase ∧ (f.block r.a).free ∧ !(f.block r.a).bad then
      { (f.updBlock r.a fun x => { x with free := false, erasing := true, erases := x.erases - 1 }) with
        jpending := f.jpending.filter (· != r) }
    else f
  s.setFlash (s.flash.jpending.foldl again s.flash)

/-- WARM_MOUNT_COMPLETE: every mapping is kept, with the cut points of Table 9-4, and undurable migrations are abandoned (R195), or the tier
goes OFFLINE and every page in it is lost. -/
def warmMountComplete (good : Bool) (s : State) : State :=
  let f := s.flash
  if !f.mounting ∨ f.st = 0 then s
  else if good then
    let s1 := eraseAgain (settleMoves (setCause pgFlm 0 (s.setFlash { f with mounting := false })))
    s1.undurable.foldl (fun t h => migrationFail h t) s1
  else
    let s1 := setCause pgFlm 1 (s.setFlash { f with mounting := false })
    let s2 := (Map.keys (Map.filterKV s1.pages fun _ p => p.state == .migrating && p.dest == 1 && !p.restoring)).foldl
      (fun t h => migrationFail h t) s1
    let s3 := (Map.keys (Map.filterKV s2.pages fun _ p => p.shadow.isSome)).foldl (fun t h => shadowLost h t) s2
    let s4 := (Map.keys (Map.filterKV s3.pages fun _ p => p.loc.isSome)).foldl (fun t h => nandLost h t) s3
    s4.setFlash { s4.flash with st := 0, map := [], placed := [], pack := [], queuedUnits := [], collecting := [], moves := [] }

/-- WARM_MOUNT_COMPLETE. -/
def execWarmMountComplete (ok_ : Bool) (s : State) : Host.Outcome State Fault Refusal := ok (whenReady (warmMountComplete ok_) s)

end Sys2Proof.Machine
end

