-- ==== Sys2Proof/Machine/Ports.lean ====
section
/-! DEFINITION. The Ethernet ports (R236 to R239, R262, R386): links and degradation, Neighbor Discovery, Echo, and frames that are
discarded. -/
namespace Sys2Proof.Machine

/-- A frame arrives on a port: it counts there (R262). -/
def countFrame (port len : Nat) (s : State) : State := countUp (pgEth port) 0x078 len (countUp (pgEth port) 0x068 1 s)

/-- Bytes of a frame on a port that carries IPv6 and `n` bytes behind it: at least 64 (R237). -/
def State.ipFrame (s : State) (port n : Nat) : Nat := max 64 (14 + (if s.tagged port then 4 else 0) + 40 + n + 4)

/-- Bytes of a Neighbor Solicitation or Advertisement with one link-layer address option. -/
def neighborLen : Nat := 32

/-- Whether a port is one of the mode in force and up. -/
def State.portUp (s : State) (port : Nat) : Bool := s.upPorts.contains port

/-! ## Neighbor Discovery and Echo -/

/-- NEIGHBOR_SOLICITATION: for the node's own addresses an Advertisement is queued, a control frame (kind 7). -/
def solicited (port : Nat) (target src : Bytes) (s : State) : State :=
  if !s.portUp port then s
  else
    let n := s.ipFrame port neighborLen
    let s1 := countFrame port n s
    if s.ownAddr target then
      queueFrame port { what := 2, addr := src, kind := 7, entity := none, len := n, hdr := [], payload := target } s1
    else s1

/-- NEIGHBOR_SOLICITATION. -/
def execNeighborSolicitation (port : Nat) (ends : Ends) (s : State) : Host.Outcome State Fault Refusal :=
  ok (whenReady (solicited port ends.dst ends.src) s)

/-- NEIGHBOR_ADVERTISEMENT: it resolves the next hop of a port whose ETH_NH_MAC is zero, when the target is a node the port sends to. -/
def advertised (port : Nat) (target mac : Bytes) (s : State) : State :=
  if !s.portUp port then s
  else
    let s1 := countFrame port (s.ipFrame port neighborLen) s
    let fixed := s.reg (pgEth port) 0x050 != 0 || s.reg (pgEth port) 0x054 != 0
    let asked := (List.range 4096).any fun n => s.field pgPft 0x084 0 1 n == 1 && s.nodeAddr n == target
    if fixed ∨ !asked ∨ mac.length ≠ 6 then s1
    else { s1 with pft := { s1.pft with nextHop := Map.insert s1.pft.nextHop port mac } }

/-- NEIGHBOR_ADVERTISEMENT. -/
def execNeighborAdvertisement (port : Nat) (target mac : Bytes) (s : State) : Host.Outcome State Fault Refusal :=
  ok (whenReady (advertised port target mac) s)

/-- ECHO_REQUEST: answered with an Echo Reply, unless the reply would exceed the port's largest frame (R273). One that is not
addressed to the node is discarded and counted. -/
def echoed (port : Nat) (dst src payload : Bytes) (s : State) : State :=
  if !s.portUp port then s
  else if !s.ownAddr dst then s.bump (pgEth port) 0x094
  else
    let n := s.ipFrame port (8 + payload.length)
    if 9216 < n then s.bump (pgEth port) 0x090
    else
      let s1 := countFrame port n s
      if s.largestFrame port < n then s1
      else queueFrame port { what := 3, addr := src, kind := 7, entity := none, len := n, hdr := dst, payload } s1

/-- ECHO_REQUEST. -/
def execEchoRequest (port : Nat) (ends : Ends) (payload : Bytes) (s : State) : Host.Outcome State Fault Refusal :=
  ok (whenReady (echoed port ends.dst ends.src payload) s)

/-- FRAME_DISCARD: a frame above 9,216 bytes counts in ETH_OVERSIZE; a PAUSE or PFC frame, and one that is not IPv6 or not addressed to
the node, in ETH_NOT_PFT (R237, R239). -/
def frameDiscard (port : Nat) (oversize : Bool) (s : State) : State :=
  if !s.portUp port then s
  else if oversize then s.bump (pgEth port) 0x090
  else s.bump (pgEth port) 0x094

/-- FRAME_DISCARD. -/
def execFrameDiscard (port : Nat) (oversize _pauseOrPfc : Bool) (s : State) : Host.Outcome State Fault Refusal :=
  ok (whenReady (frameDiscard port oversize) s)

/-! ## Links (R238, R259, R386) -/

/-- A port's link goes down: LINK_DOWN is raised. -/
def portDown (port : Nat) (s : State) : State :=
  if s.portUp port then
    let s1 : State := { s with pft := { s.pft with down := s.pft.down ++ [port] } }
    raise (event 3 0 0x0100 (pgEth port) port)
      (setCause pgPft 0 (setCause (pgEth port) 0 (s1.bump (pgEth port) 0x08C)))
  else s

/-- LINK_DOWN. -/
def execLinkDown (port : Nat) (s : State) : Host.Outcome State Fault Refusal := ok (whenReady (portDown port) s)

/-- A port of the mode in force, enabled and with its reference, comes up: LINK_UP is raised. -/
def portRises (port : Nat) (s : State) : State :=
  if port < s.pft.ports ∧ !s.portUp port ∧ s.pins.ref156 ∧ s.field (pgEth port) 0x044 0 1 = 1 then
    let s1 : State := { s with pft := { s.pft with down := s.pft.down.filter (· != port) } }
    raise (event 0 0 0x0101 (pgEth port) port (s1.portRate port)) (setCause pgPft 0 (setCause (pgEth port) 1 s1))
  else s

/-- LINK_UP. -/
def execLinkUp (port : Nat) (s : State) : Host.Outcome State Fault Refusal := ok (whenReady (portRises port) s)

/-- The lower half of the lanes in a mask of `n` lanes, and the upper. -/
def halves (mask n : Nat) : Nat × Nat :=
  let on := (List.range 16).filter fun k => bitOf mask k
  let sum (l : List Nat) : Nat := l.foldl (fun a k => a + 2 ^ k) 0
  (sum (on.take (n / 2)), sum (on.drop (n / 2)))

/-- LANE_FAILURE (R238): a lane that the port runs on fails. -/
def laneFails (port lane : Nat) (s : State) : State :=
  let lanes := s.portLanes port
  let n := lanesIn lanes
  if !s.portUp port ∨ !bitOf lanes lane then s
  else if s.field (pgEth port) 0x044 2 1 = 1 ∧ 4 ≤ n then
    let h := halves lanes n
    let good := if bitOf h.1 lane then h.2 else h.1
    let s1 : State := { s with pft := { s.pft with degraded := Map.insert s.pft.degraded port good } }
    raise (event 3 0 0x0102 (pgEth port) port lane) (setCause (pgEth port) 2 s1)
  else portDown port s

/-- LANE_FAILURE. -/
def execLaneFailure (port lane : Nat) (s : State) : Host.Outcome State Fault Refusal := ok (whenReady (laneFails port lane) s)

/-- What a write of ETH_CTRL.ENABLE does: 0 takes the port down; 0 and then 1 ends a degradation, and the port retrains. -/
def portEnable (port : Nat) (old new : Bool) (s : State) : State :=
  if old ∧ !new then portDown port s
  else if !old ∧ new then { s with pft := { s.pft with degraded := Map.erase s.pft.degraded port } }
  else s

/-- REF156_LOST: every Ethernet port goes down (R386). -/
def ref156Lost (s : State) : State :=
  (List.range s.pft.ports).foldl (fun t k => portDown k t) (setCause pgClk 2 { s with pins := { s.pins with ref156 := false } })

/-- REF156_LOST. -/
def execRef156Lost (s : State) : Host.Outcome State Fault Refusal :=
  ok (if s.phase = .ready then ref156Lost s else { s with pins := { s.pins with ref156 := false } })

/-- REF156_RETURN: the ports may train again; each comes up with its LINK_UP. -/
def execRef156Return (s : State) : Host.Outcome State Fault Refusal := ok { s with pins := { s.pins with ref156 := true } }

/-- A reset of the Ethernet complex (R236): PORT_MODE takes effect, every connection moves to ERROR, nothing waits on a port, and the
ports train anew. A degraded port stays so, for only a write of ETH_CTRL.ENABLE ends it (R238). In another mode the ports are others
(log entry 147), and their gate lists are empty (R272). -/
def etherReset (s : State) : State :=
  let s1 := (Map.keys s.pft.conns).foldl (fun t i => connError i 3 t) s
  let s2 := (List.range s1.pft.ports).foldl (fun t k => portDown k t) s1
  let mode := s2.field pgPft 0x040 0 2
  let same := decide (mode = s2.pft.portMode)
  { s2 with
    pft := { s2.pft with portMode := mode, down := List.range 8, degraded := if same then s2.pft.degraded else [], nextHop := [] },
    tc := { s2.tc with queues := [], gates := if same then s2.tc.gates else [] } }

end Sys2Proof.Machine
end

