-- ==== Sys2Proof/Machine/Power.lean ====
section
/-! DEFINITION. Power and temperature (R426 to R438) and the events of the power pins and references (R234, R386, R428, R430, R431). -/
namespace Sys2Proof.Machine

/-! ## The throttle ladder (Table 19-3) -/

/-- Core clock of a position, in 100 MHz units. -/
def ladderClock (pos : Nat) : Nat := 12 - min pos 6
/-- VDD_CORE of a position, in mV. -/
def ladderMv (pos : Nat) : Nat := 800 - 25 * min pos 4
/-- HBM issue cap of a position, as PWR_STAT.CAP codes it. -/
def ladderCap (pos : Nat) : Nat := pos - 6
/-- The lowest position of the ladder. -/
def ladderEnd : Nat := 9

/-- Average limit of a profile in W, and its bucket's depth in 0.1 mJ (Table 19-4). -/
def profileAvg (p : Nat) : Nat := if p = 0 then 400 else if p = 1 then 480 else 600
def profileDepth (p : Nat) : Nat := if p = 2 then 0 else 240000

/-- The profile in force, and the position. -/
def State.profileNow (s : State) : Nat := s.field pgPwr 0x040 0 2
def State.position (s : State) : Nat := s.field pgPwr 0x044 0 4

/-- Puts a position's clock and HBM cap in force; a change of the clock counts on the CLK page (R393). -/
def setPosition (pos : Nat) (s : State) : State :=
  let old := s.field pgPwr 0x044 4 5
  let new := ladderClock pos
  let s1 := s.setReg pgPwr 0x044 (pos + 16 * new + 512 * ladderCap pos + (if s.pwr.thermal then 2048 else 0))
  if new = old then s1
  else
    let low := min new (s1.field pgClk 0x040 8 5)
    setCause pgClk 1 ((s1.setReg pgClk 0x040 (new + 256 * low)).bump pgClk 0x054)

/-- Sends a set point to the VDD_CORE regulator where it changes (R427). -/
def setVolts (mv : Nat) (s : State) : State :=
  if s.field pgPwr 0x060 0 10 = mv then s else (s.setReg pgPwr 0x060 mv).send (.avs mv)

/-- A move down: the clock falls first, then the voltage. A thermal condition's move raises THROTTLE, and the first of a condition
THERMAL_THROTTLE (R437). -/
def moveDown (s : State) : State :=
  let pos := min ladderEnd (s.position + 1)
  let s1 := setVolts (ladderMv pos) (setPosition pos { s with pwr := { s.pwr with target := pos, rising := false } })
  let s2 := s1.bump pgPwr 0x064
  if s.pwr.thermal then
    let s3 := setCause pgPwr 2 s2
    if s.pwr.raised then s3
    else raise (event 3 6 0x0601 pgPwr s.pwr.hotTemp s.pwr.hotFrom) { s3 with pwr := { s3.pwr with raised := true } }
  else s2

/-- A move up: the voltage rises first, and the clock follows once the regulator reports that it has settled (R427). -/
def moveUp (s : State) : State :=
  let pos := s.position - 1
  let s1 : State := { s with pwr := { s.pwr with target := pos } }
  if ladderMv pos = s.field pgPwr 0x060 0 10 then setPosition pos s1
  else setVolts (ladderMv pos) { s1 with pwr := { s1.pwr with rising := true } }

/-- A permitted profile takes effect: B falls to the new depth where it stood above it (R434), and the change is logged at that instant
(R325, R442). -/
def takeProfile (s : State) : State :=
  match s.pwr.profileNext with
  | none => s
  | some p =>
    let old := s.profileNow
    let b : Int := min s.pwr.bucket (profileDepth p : Int)
    let s1 := setCause pgPwr 0 ({ s with pwr := { s.pwr with profileNext := none, bucket := b } }.setField pgPwr 0x040 0 2 p)
    raise (event 0 6 0x0600 pgPwr old p) (regRecord s.pwr.profileBy pgPwr 0x040 old p 0 s1)

/-- The measured power's energy, counted in mJ. -/
def countEnergy (dw : Nat) (s : State) : State :=
  let e := s.pwr.energyRem + dw
  countUp pgPwr 0x070 (e / 10) { s with pwr := { s.pwr with energyRem := e % 10 } }

/-- The decision period, 1 ms in ns (R27). -/
def decisionPeriod : Nat := 1000000

/-- POWER_DECISION (R433): the end of a 1 ms period with an average package power of `dw` tenths of a watt. -/
def decideNow (dw0 : Nat) (s0 : State) : State :=
  let dw := min dw0 65535
  let s := takeProfile (countEnergy dw (s0.setReg pgPwr 0x048 dw))
  let depth : Int := profileDepth s.profileNow
  let avg := 10 * profileAvg s.profileNow
  let b : Int := min depth (s.pwr.bucket + avg - dw)
  let held := s.pwr.holdoff
  let s1 : State := { s with pwr := { s.pwr with bucket := b, holdoff := false, raised := s.pwr.raised && s.pwr.thermal } }
  let down := (decide (b < 0) && decide (avg < dw)) || decide (6000 < dw) || s.pwr.thermal
  if down then (if s.position < ladderEnd then moveDown s1 else s1)
  else if depth ≤ 2 * b ∧ !s.pwr.nearThermal ∧ !held ∧ !s.pwr.rising ∧ 0 < s.position then moveUp s1
  else s1

/-- A decision is made once a period has passed since the last, so that the position moves at most once in it (R27). -/
def powerDecision (dw : Nat) (s : State) : State :=
  if s.time < s.pwr.decidedAt + decisionPeriod then s
  else decideNow dw { s with pwr := { s.pwr with decidedAt := s.time } }

/-- POWER_DECISION. -/
def execPowerDecision (deciwatts : Nat) (s : State) : Host.Outcome State Fault Refusal := ok (whenReady (powerDecision deciwatts) s)

/-- AVS_SETTLED: the regulator has settled, and the clock rises. -/
def avsSettled (s : State) : State :=
  if s.pwr.rising then setPosition s.pwr.target { s with pwr := { s.pwr with rising := false } } else s

/-- AVS_SETTLED. -/
def execAvsSettled (s : State) : Host.Outcome State Fault Refusal := ok (whenReady avsSettled s)

/-- AVS_FAIL: no settled report within 500 µs; the lower position's clock stays, and no rise is tried at the next decision. -/
def avsFail (s : State) : State :=
  if s.pwr.rising then
    let s1 : State := { s with pwr := { s.pwr with rising := false, target := s.position, holdoff := true } }
    raise (event 4 6 0x0602 pgPwr) (setCause pgPwr 3 (s1.bump pgPwr 0x068))
  else s

/-- AVS_FAIL. -/
def execAvsFail (s : State) : Host.Outcome State Fault Refusal := ok (whenReady avsFail s)

/-- PWR_PROFILE is written (R2, R434, R442): 3 is ignored, and P600 on an air-rated part is refused. -/
def setProfile (master p : Nat) (s : State) : State :=
  if 3 ≤ p then s
  else if p = 2 ∧ !s.fuses.liquid then
    setCause pgPwr 1 (s.setField pgPwr 0x040 8 8 Status.invalidMode.code)
  else
    let s1 := s.setField pgPwr 0x040 8 8 0
    if s.profileNow = p then { s1 with pwr := { s1.pwr with profileNext := none } }
    else if s.pwr.profileNext = some p then s1
    else { s1 with pwr := { s1.pwr with profileNext := some p, profileBy := master } }

/-! ## Temperature (R437, R438) -/

/-- THERM_TRIP_N is driven low and stays so until power-on; every clock but the Keeper's stops, and nothing more is sent. -/
def thermTrip (s : State) : State := { s with phase := .tripped, pins := { s.pins with thermTripN := false } }

/-- The hottest stack and its number. -/
def hottest (l : List Nat) : Nat × Nat :=
  (List.range l.length).foldl (fun b k => if b.1 < l.getD k 0 then (l.getD k 0, k) else b) (0, 0)

/-- TEMPERATURE_SAMPLE: the hottest Tj with its sensor, and each stack's temperature. -/
def temperatureSample (tj sensor : Nat) (hbms : List Nat) (s : State) : State :=
  let s1 := (List.range 8).foldl (fun t k => t.setReg (pgHbm k) 0x04C (min 255 (hbms.getD k 0))) s
  let hot := hottest (hbms.take 8)
  let most := max (min 255 tj) (s.field pgPwr 0x050 8 8)
  let s2 := s1.setReg pgPwr 0x050 (min 255 tj + 256 * most)
  let tjLim := s.field pgPwr 0x054 0 7
  let hbmLim := s.field pgPwr 0x054 8 7
  let thermal := decide (tjLim ≤ tj ∨ hbmLim ≤ hot.1)
  let near := decide (tjLim ≤ tj + 5 ∨ hbmLim ≤ hot.1 + 5)
  let from_ : Nat × Nat := if tjLim ≤ tj then (tj, sensor) else (hot.1, 0x100 + hot.2)
  let s3 : State := { s2 with pwr := { s2.pwr with thermal, nearThermal := near, hotTemp := from_.1, hotFrom := from_.2 } }
  let s4 := s3.setField pgPwr 0x044 11 1 (if thermal then 1 else 0)
  if 115 ≤ tj ∨ 100 ≤ hot.1 then thermTrip s4 else s4

/-- TEMPERATURE_SAMPLE. A trip during the power-fail flush stops the flush. -/
def execTemperatureSample (tj sensor : Nat) (hbms : List Nat) (s : State) : Host.Outcome State Fault Refusal :=
  ok (match s.phase with
    | .ready => temperatureSample tj sensor hbms s
    | .recovery => temperatureSample tj sensor hbms s
    | .waitPwrFail => temperatureSample tj sensor hbms s
    | .flushing => temperatureSample tj sensor hbms s
    | .flushed => temperatureSample tj sensor hbms s
    | _ => s)

/-! ## Power pins, rails and references -/

/-- The part stops as at power-off: only a power-on brings it back. -/
def stopNode (s : State) : State := { s with phase := .stopped }

/-- PWR_FAIL_N_FALL (R234, R431): the flush starts; a format or a mount that runs stops. A fall after a trip, or after the part has
stopped, changes the pin alone. -/
def pwrFailFall (s : State) : State :=
  let s1 : State := { s with pins := { s.pins with pwrFailN := false } }
  match s.phase with
  | .ready => { s1 with phase := .flushing, flash := { s1.flash with formatting := false } }
  | .recovery => { s1 with phase := .flushing }
  | _ => s1

/-- PWR_FAIL_N_FALL. -/
def execPwrFailNFall (s : State) : Host.Outcome State Fault Refusal := ok (pwrFailFall s)

/-- The journal is made durable, with a CLOSED record of the boot count and the sequence at its end (Table 9-3). -/
def Flash.close (f : Flash) (boots : Nat) : Flash :=
  let g := f.commit
  { g with jdurable := g.jdurable ++ [⟨.closed, boots, g.jseq, 0, g.jseq + 1⟩], jseq := g.jseq + 1, closed := f.formatted }

/-- Steps 6 to 8 of Table 9-7: write buffers are programmed, each dirty segment goes to a new place, and the journal is closed. -/
def Flash.flush (f : Flash) (boots : Nat) : Flash :=
  let g := (Map.keys f.segDirty).foldl (fun h k => h.writeSeg k) f
  { g.close boots with
    queuedUnits := [], buffered := 0, pack := [], moves := [], worn := decide (f.st = 2) }

/-- FLUSH_COMPLETE: what is buffered is programmed, dirty segments are written back, the journal is durable and ends in a CLOSED record,
and the part waits for power-off. A flush after a stopped format or mount has written only the journal. -/
def flushComplete (s : State) : State :=
  match s.phase with
  | .flushing =>
    let f := s.flash
    let all : Flash := if f.serving then f.flush s.boot.count
      else { f.close s.boot.count with mounting := false }
    { s with phase := .flushed, flash := if s.boot.recovery then f else all }
  | _ => s

/-- FLUSH_COMPLETE. -/
def execFlushComplete (s : State) : Host.Outcome State Fault Refusal := ok (flushComplete s)

/-- SYS_RST_N_FALL: the part stops at once, and a flush that still runs with it (R430). -/
def execSysRstNFall (s : State) : Host.Outcome State Fault Refusal :=
  ok { s with phase := .off, pins := { s.pins with sysRstN := false } }

/-- RAIL_FAULT: a rail leaves its limits while SYS_RST_N is high (R428). -/
def railFault (rail : Nat) (s : State) : State :=
  match s.phase with
  | .off => s
  | .tripped => s
  | _ => if rail < 8 then stopNode s else s

/-- RAIL_FAULT. -/
def execRailFault (rail : Nat) (s : State) : Host.Outcome State Fault Refusal := ok (railFault rail s)

/-- REF100_LOST (R386). -/
def ref100Lost (s : State) : State :=
  let s1 : State := { s with pins := { s.pins with ref100 := false } }
  match s.phase with
  | .off => s1
  | .tripped => s1
  | _ => stopNode s1

/-- REF100_LOST. -/
def execRef100Lost (s : State) : Host.Outcome State Fault Refusal := ok (ref100Lost s)

end Sys2Proof.Machine
end

