-- ==== Sys2Proof/Machine/Domains.lean ====
section
/-! DEFINITION. Reset domains (R388 to R391) and the serial-memory window (R381, R394). -/
namespace Sys2Proof.Machine

/-! ## Waiting work -/

/-- Runs the commands that waited for a domain; those that still have to wait do so again, in order. -/
def runWaiting (s : State) : State :=
  s.boot.waiting.foldl (fun t w => serving w.1 w.2.1 w.2.2 (runCommand w.1 w.2.1 w.2.2) t) { s with boot := { s.boot with waiting := [] } }

/-- Domains that software can reset (Table 16-9). -/
def domainCount : Nat := 24

/-- QUIESCE_WRITE: a write of RST_QUIESCE_IN or RST_QUIESCE_OUT. A domain whose bits are not both set is not drained. -/
def quiesceWrite (master : Nat) (out : Bool) (value : Nat) (s : State) : State :=
  let off := if out then 0x04C else 0x048
  let old := s.reg pgRst off
  let new := value % 2 ^ 24
  if old = new then s
  else
    let s1 := regRecord master pgRst off old new 0 (s.setReg pgRst off new)
    let both := s1.reg pgRst 0x048 &&& s1.reg pgRst 0x04C
    runWaiting (s1.setReg pgRst 0x050 (s1.reg pgRst 0x050 &&& both))

/-- DOMAIN_DRAINED: both bits are set and the domain's crossing queues are empty; the Match Engine's shift has ended. -/
def domainDrained (d : Nat) (s : State) : State :=
  if d < domainCount ∧ bitOf (s.reg pgRst 0x048) d ∧ bitOf (s.reg pgRst 0x04C) d ∧ !bitOf (s.reg pgRst 0x050) d
      ∧ (d ≠ 20 ∨ s.mex.changes = []) then
    setCause pgRst 0 (s.setReg pgRst 0x050 (s.reg pgRst 0x050 ||| 2 ^ d))
  else s

/-- DOMAIN_DRAINED. -/
def execDomainDrained (domain : Nat) (s : State) : Host.Outcome State Fault Refusal := ok (whenReady (domainDrained domain) s)

/-! ## What a reset does to a domain (Table 16-9) -/

/-- Commits DEADLINE for a request that is not at its commit point. -/
def commitDeadline (i : Nat) (s : State) : State :=
  match s.live i with
  | none => s
  | some r => match r.kind with
    | .merge => endMerge i .deadline noneDecided noneDecided s
    | .query => failQuery i .deadline 0 0 s
    | .promote => commitReq i .deadline (mirrorResult r.id Status.deadline.code 0 0 0) s
    | .mirror => commitReq i .deadline (mirrorResult r.id Status.deadline.code 0 0 0) s
    | .profile => abortOne i (endLoad r.src .deadline 0 0 0 0 s)
    | _ => commitPlain i .deadline s

/-- Whether a request has work in a region. -/
def State.worksIn (s : State) (d : Nat) (r : Req) : Bool :=
  match r.kind with
  | .query => !r.arrived.contains d && r.items.any fun it => it.region == d && it.state != .waiting && it.state != .omitted
  | .merge => r.mergeRegion == d && r.mergePods != []
  | .append => s.pages.any fun kv => kv.2.conv == r.conv && kv.2.layer == r.layer && kv.2.state == .opened && kv.2.lastRegion == d
  | .seal => r.waits.any fun h => match Map.find? s.pages h with | some p => p.lastRegion == d | none => false
  | _ => false

/-- Takes away one pod's work: its page buffers are free, and its units, states and profile cache are gone. -/
def clearPod (region pod : Nat) (s : State) : State :=
  let x := s.pod region pod
  let page (w : Nat × Nat) : Option Nat := (Map.find? s.reqs w.1).bind fun r => (r.items[w.2]?).map (·.page)
  let s1 := (x.work.filterMap page).foldl (fun t h => t.updPage h fun p => { p with holders := p.holders - 1 }) s
  s1.updPod region pod fun y => { y with passes := [], queued := 0, sets := [], cache := [] }

/-- Clears a region's pods and gathered groups; its HBM and pages are kept. -/
def clearRegion (d : Nat) (s : State) : State :=
  let s1 := (List.range 28).foldl (fun t k => if Map.has t.pods (podKey d k) then clearPod d k t else t) s
  s1.updRegion d fun r => { r with groups := [] }

/-- The reset of a region: with `drained`, requests with work there commit DEADLINE; else they wait for their deadlines. -/
def resetRegion (d : Nat) (drained : Bool) (s : State) : State :=
  let mine := Map.keys (Map.filterKV s.reqs fun _ r => r.status.isNone && s.worksIn d r)
  let s1 := clearRegion d s
  sweep (if drained then mine.foldl (fun t i => commitDeadline i t) s1 else s1)

/-- The reset of the request decoder and query combiner. -/
def resetDecoder (s : State) : State :=
  (Map.keys (Map.filterKV s.reqs fun _ r => r.status.isNone)).foldl (fun t i => commitDeadline i t) s

/-- The reset of the PFT engine: connections enter ERROR. -/
def resetPft (s : State) : State := (Map.keys s.pft.conns).foldl (fun t i => connError i 3 t) s

/-- The reset of the flash media controller: a warm mount; a format that ran stops, and map SRAM is loaded anew. -/
def resetFlash (s : State) : State :=
  s.setFlash { s.flash with mounting := decide (s.flash.st ≠ 0), formatting := false, collecting := [], segSram := [] }

/-- The reset of the Match Engine while a shift runs: the changes are discarded, and one rule may remain twice (R391). -/
def resetMatch (s : State) : State :=
  if s.mex.changes = [] then s
  else
    let (n, s1) := s.draw
    let (m, s2) := s1.draw
    let p := Config.freeChoice m % (s.mex.rules.length + 1)
    let twice := match s.mex.rules[p]? with
      | some r => s.mex.rules.take p ++ r :: s.mex.rules.drop p
      | none => s.mex.rules
    { s2 with mex := { s2.mex with changes := [], shiftPos := p, rules := if Config.freeChoice n % 2 = 0 then s.mex.rules else twice } }

/-- The reset of the Tier Manager: running migrations are abandoned (R195). -/
def resetTier (s : State) : State :=
  (Map.keys (Map.filterKV s.pages fun _ p => p.state == .migrating)).foldl (fun t h => migrationFail h t) s

/-- The reset of the mirror engine: streams of every partition become RESYNCING. -/
def resetMirror (s : State) : State :=
  (Map.keys (Map.filterKV s.streams fun _ x => x.mstate != 0)).foldl (fun t k => enterResync (k / 256) (k % 256) t) s

/-- The reset of the security processor: every key slot is cleared (R305), and SPDM sessions end. Its SRAM keeps the root counters. -/
def resetSecurity (by_ : Nat) (s : State) : State :=
  let s1 := (Map.keys s.sec.keys).foldl (fun t p => clearKey by_ p t) s
  { s1 with sec := { Sec.empty with rootLost := s1.sec.rootLost, versions := s1.sec.versions, roots := s1.sec.roots } }

/-- The effect of a domain's reset. -/
def resetEffect (by_ d : Nat) (drained : Bool) (s : State) : State :=
  if d < 16 then resetRegion d drained s
  else if d = 16 then resetDecoder s
  else if d = 17 then resetPft s
  else if d = 18 then etherReset s
  else if d = 19 then resetFlash s
  else if d = 20 then resetMatch s
  else if d = 21 then resetTier s
  else if d = 22 then resetMirror s
  else resetSecurity by_ s

/-- The reset domain of a page's block, or none (R409). -/
def pageDomain (page : Nat) : Option Nat :=
  if 0x100 ≤ page ∧ page < 0x2C0 then some ((page - 0x100) / 28)
  else if 0x300 ≤ page ∧ page < 0x310 then some (page - 0x300)
  else if page = pgPft ∨ page = pgTc then some 17
  else if 0x021 ≤ page ∧ page < 0x029 then some 18
  else if page = pgFlm then some 19
  else if page = pgMex then some 20
  else if page = pgTier then some 21
  else if page = pgSec then some 23
  else none

/-- A reset of a block's domain disarms the injections armed on its pages (R411). -/
def disarm (d : Nat) (s : State) : State :=
  { s with res := { s.res with armed := Map.filterKV s.res.armed fun page _ => pageDomain page != some d } }

/-- What an undrained reset adds (R391): credits are lost, a transfer may arrive corrupt and be discarded, and UNSAFE is raised. -/
def unsafeReset (d : Nat) (s : State) : State :=
  let (n, s1) := s.draw
  let (m, s2) := s1.draw
  let lost := Map.getD s2.boot.lostCredits d 0 + Config.freeChoice n
  let s3 : State := { s2 with boot := { s2.boot with lostCredits := Map.put s2.boot.lostCredits d lost 0 } }
  let s4 := if Config.freeChoice m % 2 = 0 then s3 else s3.bump pgRes 0x08C
  setCause pgRst 2 (s4.bump pgRst 0x05C)

/-- Pulses a domain: the drained reset restores the credits of its crossings. -/
def pulseWith (by_ d : Nat) (drained : Bool) (s : State) : State :=
  let s1 := resetEffect by_ d drained s
  let s2 := if drained then { s1 with boot := { s1.boot with lostCredits := Map.erase s1.boot.lostCredits d } } else unsafeReset d s1
  let s3 : State := { s2 with boot := { s2.boot with
    resetting := if s2.boot.resetting.contains d then s2.boot.resetting else s2.boot.resetting ++ [d] } }
  (s3.setReg pgRst 0x058 (s3.reg pgRst 0x058 &&& (0xFFFFFF ^^^ 2 ^ d))).send (.moduleReset d)

/-- A pulse by software: the domain is drained where RST_DRAINED says so. -/
def pulseDomain (by_ d : Nat) (s : State) : State := pulseWith by_ d (bitOf (s.reg pgRst 0x050) d) (disarm d s)

/-- RST_PULSE: each bit that is 1 resets its domain. -/
def rstPulse (master value : Nat) (s : State) : State :=
  let v := value % 2 ^ 24
  if v = 0 then s
  else
    let ds := (List.range domainCount).filter fun d => bitOf v d
    ds.foldl (fun t d => pulseDomain master d t) (regRecord master pgRst 0x054 0 v 0 s)

/-- DOMAIN_READY: a pulsed domain is ready again. -/
def domainReady (d : Nat) (s : State) : State :=
  if s.boot.resetting.contains d then
    let s1 : State := { s with boot := { s.boot with resetting := s.boot.resetting.filter (· != d) } }
    runWaiting (setCause pgRst 1 (s1.setReg pgRst 0x058 (s1.reg pgRst 0x058 ||| 2 ^ d)))
  else s

/-- DOMAIN_READY. -/
def execDomainReady (domain : Nat) (s : State) : Host.Outcome State Fault Refusal := ok (whenReady (domainReady domain) s)

/-! ## The serial memory and its window -/

/-- A byte of the serial memory. -/
def smByte (m : Map Byte) (a : Nat) : Byte := Map.getD m a smErased

/-- Writes a byte of the serial memory, in canonical form; addresses beyond the device are not written. -/
def smPut (m : Map Byte) (a : Nat) (v : Byte) : Map Byte := if a < 0x4000000 then Map.put m a v smErased else m

/-- Programs bytes from an address on: a program clears bits and sets none. -/
def smProgram : Map Byte → Nat → Bytes → Map Byte
  | m, _, [] => m
  | m, a, b :: r => smProgram (smPut m a (smByte m a &&& b)) (a + 1) r

/-- Erases the 64 KiB sector that holds an address. -/
def smErase (m : Map Byte) (a : Nat) : Map Byte := Map.filterKV m fun k _ => k / 0x10000 != a / 0x10000

/-- Bytes of the serial memory from an address on. -/
def smBytes (m : Map Byte) (a n : Nat) : Bytes := (List.range n).map fun k => smByte m (a + k)

/-- Whether the window may not touch an address: the booted slot, the checkpoint area and the boot-count area, but in recovery
everything may be (R381). -/
def State.smGuarded (s : State) (a : Nat) : Bool :=
  s.phase != .recovery && (decide (0x3800000 ≤ a) || decide (a / 0x1C00000 = s.boot.bootedSlot))

/-- STATUS of the window, and the end of an operation. -/
def smEnd (st : Status) (s : State) : State := setCause pgRst 3 (s.setReg pgRst 0x064 (st.code * 65536))

/-- RST_SM_CMD.OP (R381, R394): 1 erase, 2 program, 3 read; other values are ignored. -/
def smCommand (master op : Nat) (s : State) : State :=
  let a := s.field pgRst 0x060 0 26
  if op = 0 ∨ 3 < op then s
  else if s.right master pgRst < 3 then smEnd .denied (deny master pgRst s)
  else if s.boot.smOp.isSome then s.setField pgRst 0x064 16 8 Status.busy.code
  else if op ≠ 1 ∧ a % 256 ≠ 0 then smEnd .invalidMode s
  else if s.smGuarded a then smEnd .denied s
  else
    let s1 := logRec master 0 pgRst 0x064 0 (op + a * 2 ^ 32) { s with boot := { s.boot with smOp := some (op, a, 0) } }
    ((s1.setReg pgRst 0x020 (s1.reg pgRst 0x020 + 1)).setReg pgRst 0x024 master).setReg pgRst 0x064 256

/-- The window's buffer. -/
def State.smBuffer (s : State) : Bytes := (List.range 64).flatMap fun k => toLE 4 (s.reg pgRst (0x100 + 4 * k))

/-- Fills the window's buffer. -/
def fillBuffer (b : Bytes) (s : State) : State := (List.range 64).foldl (fun t k => t.setReg pgRst (0x100 + 4 * k) (leAt b (4 * k) 4)) s

/-- Replaces the serial memory's contents. -/
def State.setSmem (s : State) (m : Map Byte) : State := { s with boot := { s.boot with smem := m } }

/-- SM_DONE: the running operation ends. -/
def smDone (s : State) : State :=
  match s.boot.smOp with
  | none => s
  | some (op, a, _) =>
    let s1 : State := { s with boot := { s.boot with smOp := none } }
    smEnd .ok (if op = 1 then s1.setSmem (smErase s.boot.smem a)
      else if op = 2 then s1.setSmem (smProgram s.boot.smem a s.smBuffer)
      else fillBuffer (smBytes s.boot.smem a 256) s1)

/-- SM_DONE. -/
def execSmDone (s : State) : Host.Outcome State Fault Refusal :=
  ok (match s.phase with | .ready => smDone s | .recovery => smDone s | _ => s)

end Sys2Proof.Machine
end

