-- ==== Sys2Proof/Machine/ReedSolomon.lean ====
section
/-! DEFINITION. The 288/256 code (R331): a Reed–Solomon code of 36 symbols of 8 bits over GF(2^8), 32 of data and 4 check symbols. A
word is the polynomial whose coefficient of x^k is symbol k; the check symbols are symbols 0 to 3 (log entry 150). -/
namespace Sys2Proof

/-! ## The field -/

/-- A field element times α, modulo x^8 + x^4 + x^3 + x^2 + 1. -/
def gfDouble (a : Nat) : Nat := if a < 128 then 2 * a else (2 * a) ^^^ 0x11D

/-- The product of two field elements, over the bits of the second. -/
def gfMul (a b : Nat) : Nat :=
  ((List.range 8).foldl (fun (x : Nat × Nat) k => (gfDouble x.1, if bitOf b k then x.2 ^^^ x.1 else x.2)) (a, 0)).2

/-- α^n. -/
def alpha : Nat → Nat
  | 0 => 1
  | n + 1 => gfDouble (alpha n)

/-! ## Words -/

/-- Symbols of a word, and check symbols among them. -/
def wordSymbols : Nat := 36
def checkSymbols : Nat := 4

/-- The value of a word at α^j. -/
def syndrome (w : List Nat) (j : Nat) : Nat := w.reverse.foldl (fun n x => gfMul n (alpha j) ^^^ x) 0

/-- The generator: the product of x + α^j for j = 0 to 3, coefficients from x^0 on. -/
def generator : List Nat :=
  (List.range checkSymbols).foldl (fun p j => List.zipWith (· ^^^ ·) (0 :: p) (p.map (fun x => gfMul x (alpha j)) ++ [0])) [1]

/-- One step of the division by the generator: the remainder times x, plus a symbol from the top. -/
def divideStep (r : List Nat) (x : Nat) : List Nat :=
  let q := r.getD 3 0 ^^^ x
  List.zipWith (· ^^^ ·) (0 :: r.take 3) ((generator.take 4).map fun g => gfMul g q)

/-- The word of 32 data symbols: the check symbols are the remainder that makes it a multiple of the generator. -/
def encodeWord (data : List Nat) : List Nat := data.reverse.foldl divideStep [0, 0, 0, 0] ++ data

/-- What the decoder says of a received word. -/
inductive Decoded where
  /-- No error shows. -/
  | clean
  /-- One symbol was in error: the word as corrected. -/
  | corrected (w : List Nat)
  /-- More than one symbol is in error. -/
  | uncorrectable
deriving DecidableEq, Repr

/-- The decoder. An error of value e in symbol k alone gives the syndromes e·α^(jk); any other that is not zero is beyond it. -/
def decodeWord (w : List Nat) : Decoded :=
  let s (j : Nat) : Nat := syndrome w j
  if (List.range checkSymbols).all fun j => s j == 0 then .clean
  else
    match (List.range wordSymbols).find? fun k =>
        s 0 != 0 && (List.range checkSymbols).all fun j => s j == gfMul (s 0) (alpha (j * k)) with
    | some k => .corrected (w.modify k fun x => x ^^^ s 0)
    | none => .uncorrectable

/-- The word that carries only zeros, as received with symbols changed: each pair is a symbol and what was added to it. The code is
linear, so what the decoder says of these errors it says of them in every word. -/
def errorWord (errs : List (Nat × Nat)) : List Nat :=
  errs.foldl (fun w e => w.modify e.1 fun x => x ^^^ e.2 % 256) (List.replicate wordSymbols 0)

/-- Symbols corrected in a word received with these errors, and whether it is uncorrectable. -/
def symbolsCorrected (errs : List (Nat × Nat)) : Nat := match decodeWord (errorWord errs) with | .corrected _ => 1 | _ => 0
def beyondCode (errs : List (Nat × Nat)) : Bool := decodeWord (errorWord errs) == .uncorrectable

end Sys2Proof
end

