-- ==== Sys2Proof/Machine/Faults.lean ====
section
/-! DEFINITION. Faults and spares (R331 to R343, R353): lanes, pods, HBM rows, damaged pages, AES engines, SRAM, paths, links, the Keeper,
watchdogs and margins, and the injections of R411 that strike them. -/
namespace Sys2Proof.Machine

/-- 24 h, 1 h in ns. -/
def day : Nat := 86400000000000
def hour : Nat := 3600000000000

/-- Whether a time lies within 24 h before now. -/
def State.within24 (s : State) (t : Option Nat) : Bool := match t with | some x => decide (s.time < x + day) | none => false

/-- An armed injection of a kind on a page strikes: it is disarmed and counted (R411). -/
def strike (page kind : Nat) (s : State) : Option State :=
  match Map.find? s.res.armed page with
  | some (k, _) =>
    if k = kind then
      some (setCause pgGlb 3 (({ s with res := { s.res with armed := Map.erase s.res.armed page } } : State).bump pgGlb 0x098))
    else none
  | none => none

/-- A spare of a level was brought in, `left` of it remain (R342, R343). -/
def spareUsed (left : Nat) (s : State) : State :=
  let s1 := setCause pgRes 2 s
  if left = 0 then setCause pgRes 3 s1 else s1

/-! ## Lanes (R338) -/

/-- Marks a lane's result for the pod's page invalid and re-issues its unit (R13, R338): to the first idle spare lane, or to the first
active lane that becomes free. -/
def Pod.reissue (lane : Nat) (p : Pod) : Pod :=
  let idle (l : Nat) : Bool := !(p.lane l).testing && l != lane && !p.computing l
  let spare : Option Nat := (p.lanesIn 1).find? idle
  { p with passes := match p.passes with
    | x :: r => { x with rerun := (x.rerun.filter fun y => y.2 != some lane) ++ [(lane, spare)] } :: r
    | [] => [] }

/-- Whether a lane accumulates: on the pod's page, or for a set whose anchor the pod is (absorption and up-projection units, Table 3-4). -/
def Pod.accumulates (p : Pod) (lane : Nat) : Bool :=
  p.computing lane || ((p.lane lane).st == 0 && p.sets.any fun x => x.anchor)

/-- RESIDUE_MISMATCH: the lane stops and tests itself; its result is invalid and its unit runs again on another lane, so that no
result changes. A lane that accumulates nothing has no residue to fail. -/
def residueMismatch (region pod lane : Nat) (s0 : State) : State :=
  let hit := strike (pgPod region pod) 3 s0
  let s := hit.getD s0
  let x := s0.pod region pod
  if 66 ≤ lane ∨ (x.lane lane).testing ∨ x.st ≠ 0 ∨ x.stopped ∨ !x.accumulates lane then s0
  else
    let s1 := (s.bump pgRes 0x080).bump (pgPod region pod) 0x068
    setCause (pgPod region pod) 0 (setCause pgRes 0 (s1.updPod region pod fun y =>
      let z := if y.computing lane then y.reissue lane else y
      { z with lanes := Map.insert z.lanes lane { z.lane lane with testing := true, forced := hit.isSome } }))

/-- RESIDUE_MISMATCH. -/
def execResidueMismatch (region pod lane : Nat) (s : State) : Host.Outcome State Fault Refusal :=
  ok (whenReady (fun t => if region < 16 ∧ pod < 28 then residueMismatch region pod lane t else t) s)

/-- LANE_SELF_TEST_DONE: the lane returns to service, or is retired and a spare lane becomes active; one LANE_FAULT record. -/
def laneTested (region pod lane : Nat) (passed : Bool) (s : State) : State :=
  let x := s.pod region pod
  let l := x.lane lane
  if !l.testing then s
  else
    let page := pgPod region pod
    let out := !l.forced && (!passed || s.within24 l.faultAt)
    let seen := if l.forced then l.faultAt else some s.time
    let note (k : Nat) (t : State) : State := raise (event 1 2 0x0200 page (Config.laneDetail page lane) k) t
    if out then
      let spares := if l.st = 0 then x.lanesIn 1 else []
      let lanes := Map.insert x.lanes lane { l with st := 2, testing := false, faultAt := seen }
      let lanes' := match spares with | n :: _ => Map.insert lanes n { x.lane n with st := 0 } | [] => lanes
      let s1 := setCause page 1 (s.updPod region pod fun y => { y with lanes := lanes' })
      note 1 (match spares with
        | _ :: rest => spareUsed rest.length s1
        | [] => if l.st = 0 then setCause pgRes 3 s1 else s1)
    else
      note 0 (s.updPod region pod fun y =>
        { y with lanes := Map.insert y.lanes lane { l with testing := false, forced := false, faultAt := seen } })

/-- LANE_SELF_TEST_DONE. -/
def execLaneSelfTestDone (region pod lane : Nat) (passed : Bool) (s : State) : Host.Outcome State Fault Refusal :=
  ok (whenReady (laneTested region pod lane passed) s)

/-! ## Pods (R32, R339, R403) -/

/-- Starts a set again in a region (R32, Table 14-1): its states there and its work in the region's pods are discarded, and the pages
of it that are not yet in a partial handed over are dispatched again. -/
def restartSet (region i set : Nat) (s : State) : State :=
  match Map.find? s.reqs i with
  | none => s
  | some r =>
    let mine (it : Item) : Bool := it.region == region && it.set == set && !it.handed && (it.state == .queued || it.state == .done)
    let stop (t : State) (k : Nat) : State :=
      let it := r.items.getD k Item.none
      if mine it ∧ it.state = .queued then
        (t.updPod region it.pod fun p => p.without (i, k) it.units).updPage it.page fun p => { p with holders := p.holders - 1 }
      else t
    let s1 := (List.range r.items.length).foldl stop s
    let s2 := (List.range 28).foldl (fun t k => if (t.pod region k).hasSet i set then t.updPod region k fun p => p.freeSet i set else t) s1
    s2.updReq i fun x => { x with items := x.items.map fun it => if mine it then { it with state := .waiting, pod := 0, units := 0 } else it }

/-- Gives a pod's pages back to the dispatcher: their partial work is discarded, and they are dispatched again (R32). With the pod go
the running partials it held: the pages behind them are computed again, of the whole set where the pod was its anchor. -/
def reassign (region pod : Nat) (s : State) : State :=
  let x := s.pod region pod
  let again (i : Nat) (it : Item) : Item :=
    if it.region = region ∧ it.pod = pod ∧ !it.handed ∧ (it.state = .queued ∨ (it.state = .done ∧ x.sets.any fun y => y.req == i && y.set == it.set))
    then { it with state := .waiting, pod := 0, units := 0 } else it
  let reqs := (x.sets.map (·.req)).eraseDups
  let s1 := (x.sets.filter (·.anchor)).foldl (fun t y => restartSet region y.req y.set t) s
  reqs.foldl (fun t i => t.updReq i fun r => { r with items := r.items.map (again i) }) (clearPod region pod s1)

/-- The pods of a region, reserved ones as a mask. -/
def State.reservedPods (s : State) (region : Nat) : Nat := (s.region region).rsv.foldl (fun m kv => m ||| kv.2.pods) 0

/-- Moves or drops a pod's reservation: its bit goes, and the bit of its successor is set (R339). -/
def passReservation (region pod : Nat) (dst : Option Nat) (s : State) : State :=
  let move (x : Rsv) : Rsv :=
    if bitOf x.pods pod then { x with pods := (x.pods ^^^ 2 ^ pod) ||| (match dst with | some k => 2 ^ k | none => 0) } else x
  s.updRegion region fun r => { r with rsv := Map.mapVals r.rsv fun _ x => move x }

/-- Pods of a mask, as a number. -/
def podsOf (mask : Nat) : Nat := ((List.range 28).filter fun k => bitOf mask k).length

/-- With no unreserved active pod left, the STRICT partition with the most reserved pods gives up its highest-numbered one (R403). -/
def giveUpPod (region : Nat) (s : State) : State :=
  let taken := s.reservedPods region
  if (s.activePods region).any (fun k => !bitOf taken k) then s
  else
    let most := (s.region region).rsv.foldl (fun (b : Option (Nat × Nat)) kv => match b with
      | some y => if y.2 < podsOf kv.2.pods then some (kv.1, podsOf kv.2.pods) else b
      | none => if podsOf kv.2.pods = 0 then none else some (kv.1, podsOf kv.2.pods)) none
    match most with
    | none => s
    | some (part, _) =>
      let mask := (Map.getD (s.region region).rsv part ⟨0, 0, 0, 0⟩).pods
      let top := ((List.range 28).filter fun k => bitOf mask k).foldl max 0
      raise (event 3 2 0x0203 (pgPod region top)) (passReservation region top none s)

/-- Retires a pod: a spare pod of the region becomes active and takes its reservations; without one, POD_RETIRED is raised. -/
def retirePod (region pod : Nat) (s : State) : State :=
  let s1 := (reassign region pod s).updPod region pod fun y => { y with st := 2, stopped := false }
  let spares := (List.range 28).filter fun k => (s1.pod region k).st == 1
  match spares with
  | n :: rest =>
    let s2 := passReservation region pod (some n) (s1.updPod region n fun y => { y with st := 0 })
    spareUsed rest.length (setCause (pgRegn region) 1 s2)
  | [] =>
    giveUpPod region (raise (event 3 2 0x0203 (pgPod region pod)) (setCause pgRes 3 (passReservation region pod none s1)))

/-- UNIT_FAULT: the operation runs again in the same pod; a second one within 24 h retires the pod. -/
def unitFault (region pod : Nat) (s : State) : State :=
  let x := s.pod region pod
  if x.st ≠ 0 then s
  else
    let s1 := (s.bump pgRes 0x084).bump (pgPod region pod) 0x06C
    let s2 := raise (event 1 2 0x0201 (pgPod region pod)) s1
    let s3 := s2.updPod region pod fun y => { y with unitFaultAt := some s.time }
    if s.within24 x.unitFaultAt then retirePod region pod s3 else s3

/-- UNIT_FAULT. -/
def execUnitFault (region pod : Nat) (s : State) : Host.Outcome State Fault Refusal :=
  ok (whenReady (fun t => if region < 16 ∧ pod < 28 then unitFault region pod t else t) s)

/-- POD_FAULT: the sequencer pair disagrees; the pod stops, and its pages are reassigned. -/
def podFault (region pod : Nat) (s0 : State) : State :=
  let hit := strike (pgPod region pod) 4 s0
  let s := hit.getD s0
  let x := s0.pod region pod
  if x.st ≠ 0 ∨ x.stopped then s0
  else
    let s1 := (s.bump pgRes 0x084).bump (pgPod region pod) 0x06C
    let s2 := (reassign region pod s1).updPod region pod fun y => { y with stopped := true, forced := hit.isSome }
    raise (event 1 2 0x0202 (pgPod region pod)) (setCause (pgPod region pod) 2 (setCause pgRes 1 s2))

/-- POD_FAULT. -/
def execPodFault (region pod : Nat) (s : State) : Host.Outcome State Fault Refusal :=
  ok (whenReady (fun t => if region < 16 ∧ pod < 28 then podFault region pod t else t) s)

/-- POD_SELF_TEST_DONE: the pod returns to service, or is retired. -/
def podTested (region pod : Nat) (passed : Bool) (s : State) : State :=
  let x := s.pod region pod
  if !x.stopped then s
  else if x.forced then s.updPod region pod fun y => { y with stopped := false, forced := false }
  else
    let s1 := s.updPod region pod fun y => { y with stopped := false, podFaultAt := some s.time }
    if passed ∧ !s.within24 x.podFaultAt then s1 else retirePod region pod s1

/-- POD_SELF_TEST_DONE. -/
def execPodSelfTestDone (region pod : Nat) (passed : Bool) (s : State) : Host.Outcome State Fault Refusal :=
  ok (whenReady (podTested region pod passed) s)

/-! ## Damaged pages (R336) -/

/-- What becomes of a damaged page, by the table of R336. -/
def damageOutcome (h slot : Nat) (p : Page) (s : State) : State :=
  match p.state with
  | .opened =>
    match s.stream? p.conv p.layer with
    | some st =>
      let t := rehome h s
      if p.retained ∧ st.mstate = 2 then restoreOpen h slot (cutPage h (st.buoy - 256 * p.entry) p t) else cutPage h slot p t
    | none => cutPage h slot p s
  | _ =>
    match p.shadow with
    | some l => releaseSource h (s.updPage h fun q =>
        { q with state := .sealed, tier := 1, loc := some l, shadow := none, srcHeld := true, srcTier := 0, srcReaders := [] })
    | none => if p.retained then beginRestore h s else toAbsent h s

/-- A page in HBM is damaged from a slot on: the queries reading it end with INTEGRITY, and it is cut, restored or dropped. -/
def damagePage (h slot : Nat) (s : State) : State :=
  match Map.find? s.pages h with
  | none => s
  | some p =>
    if p.hbmBlocks = 0 then s
    else
      let s1 := failReaders h (setCause pgRes 7 (s.bump pgRes 0x09C))
      let s2 := if p.state = .migrating ∧ !p.restoring then migrationFail h s1 else s1
      let q := (Map.find? s2.pages h).getD p
      let s3 := wakeItems h (if q.hbmBlocks = 0 then s2 else damageOutcome h slot q s2)
      let next := match s3.stream? p.conv p.layer with | some x => x.next | none => 0
      raise { sev := 4, cls := 3, code := 0x0304, part := some p.part, page := pgRegn p.region, d0 := h, d1 := p.conv,
              d2 := (256 * p.entry + slot) % 2 ^ 24 + p.layer * 2 ^ 32, d3 := next % 2 ^ 25 } s3

/-! ## HBM and scrub (R333, R335) -/

/-- Blocks of a stack's reserve in use, and all of them. -/
def State.reserveUsed (s : State) (stack : Nat) : Nat :=
  Config.rowBlocks * (s.res.remapped.filter fun r => rowStack r == stack).length
def reserveBlocks : Nat := 131072

/-- A unit in HBM is damaged (R336): of the key store it is the directory entries of the page's keys that are lost (R167), else the page,
from the unit's slot on in its key and value space. -/
def damageUnit (page slot space : Nat) (s : State) : State :=
  if space = 4 then
    match Map.find? s.pages page with
    | some p => loseKeys (s.keysOf p.part page) s
    | none => s
  else damagePage page (if space = 0 then slot else 0) s

/-- A failing row (R335): remapped into the reserve, or with the reserve exhausted retired: its blocks leave the pool of the region its
half serves, and its page is damaged. -/
def failRow (k page slot space : Nat) (s : State) : State :=
  let stack := rowStack k
  let s1 : State := { s with res := { s.res with rowErrors := Map.erase s.res.rowErrors k } }
  if s.reserveUsed stack + Config.rowBlocks ≤ reserveBlocks then
    let s2 : State := { s1 with res := { s1.res with remapped := s1.res.remapped ++ [k] } }
    raise (event 1 3 0x0303 (pgHbm stack)) (setCause (pgHbm stack) 0 ((s2.bump (pgHbm stack) 0x058).bump pgRes 0x0A0))
  else
    let s2 := (s1.bump (pgHbm stack) 0x05C).updRegion (rowRegion k) fun r => { r with lostBlocks := r.lostBlocks + Config.rowBlocks }
    damageUnit page slot space (setCause pgRes 3 (setCause (pgHbm stack) 2 (setCause (pgHbm stack) 1 s2)))

/-- A row has had a corrected error: the third within 24 h fails it. A remapped row is out of use. -/
def rowError (k page slot space : Nat) (s : State) : State :=
  if s.res.remapped.contains k then s
  else
    let ts := (s.time :: Map.getD s.res.rowErrors k []).filter fun t => decide (s.time < t + day)
    let s1 : State := { s with res := { s.res with rowErrors := Map.insert s.res.rowErrors k ts } }
    if 3 ≤ ts.length then failRow k page slot space s1 else s1

/-- Words of HBM are read that show these errors (R331): the corrected symbols are counted and are one error event of the row; an
uncorrectable word damages its unit. -/
def hbmWords (k : Nat) (words : List (List (Nat × Nat))) (page slot space : Nat) (s0 : State) : State :=
  let stack := rowStack k
  let bad := (words.filter beyondCode).length
  let fixed := (words.map symbolsCorrected).sum
  let struck := strike (pgHbm stack) (if bad = 0 then 1 else 2) s0
  let s := if bad + fixed = 0 then s0 else struck.getD s0
  let s1 := if fixed = 0 then s else (s.bump (pgHbm stack) 0x050 fixed).bump pgRes 0x088 fixed
  if bad = 0 then (if fixed = 0 ∨ struck.isSome then s1 else rowError k page slot space s1)
  else damageUnit page slot space ((s1.bump (pgHbm stack) 0x054 bad).bump pgRes 0x08C bad)

/-- HBM_ECC_ERROR: a burst of a pseudo-channel with symbols in error. -/
def execHbmEccError (stack channel row : Nat) (errs : List (Nat × Nat)) (page slot space : Nat) (s : State) :
    Host.Outcome State Fault Refusal :=
  ok (whenReady (fun t => if stack < 8 then hbmWords (rowKey stack channel row) [errs] page slot space t else t) s)

/-! ## Regions, tags and AES engines (R311, R337, R343) -/

/-- Retires a region: its pods take no work, its HBM leaves the pool, and every page held there is damaged. The key store of its banks goes
with it (R167). -/
def retireRegion (r : Nat) (s : State) : State :=
  if (s.region r).retired then s
  else
    let held := Map.keys (Map.filterKV s.pages fun _ p => p.region == r && p.hbmBlocks != 0)
    let s0 := (clearRegion r s).updRegion r fun x => { x with retired := true }
    let s1 := loseKeys ((Map.keys s0.mex.keys).filter fun i => keyRegion (i / 1024) == r) s0
    sweep (held.foldl (fun t h => damagePage h 0 t) (setCause pgRes 3 s1))

/-- The active AES engine of a region has failed: the spare takes its place, or the region is retired. -/
def aesFails (r : Nat) (s : State) : State :=
  let x := s.region r
  if x.aesSpare then
    let left := ((List.range 16).filter fun k => k ≠ r ∧ (s.region k).aesSpare).length
    let s1 := s.updRegion r fun y => { y with aesSpare := false, aesActive := 1 - y.aesActive }
    raise (event 1 3 0x0307 (pgRegn r)) (setCause (pgRegn r) 2 (spareUsed left (setCause pgRes 3 s1)))
  else retireRegion r s

/-- Ends a request with INTEGRITY (R81): a query names the entry and the unit. -/
def endIntegrity (i page unit : Nat) (s : State) : State :=
  match s.live i with
  | none => s
  | some r => match r.kind with
    | .query => failQuery i .integrity (((r.items.find? fun it => it.page == page).map (·.entry)).getD 0) unit s
    | .merge => s
    | _ => commitPlain i .integrity s

/-- TAG_FAIL: a unit of a page, or of a mask object, failed its tag. When the re-check on the spare engine passes, the active engine has
failed and the request goes on. -/
def tagFail (h unit space req : Nat) (sparePasses : Bool) (s0 : State) : State :=
  let page := Map.find? s0.pages h
  let mask := Map.find? s0.masks h
  let part := match page, mask with | some p, _ => some p.part | none, some m => some m.part | none, none => none
  let region := match page, mask with | some p, _ => p.region | none, some m => m.region | none, none => 0
  let tier := match page with | some p => p.tier | none => 0
  match part with
  | none => s0
  | some part =>
    match strike (pgRegn region) 5 s0 with
    | some s => s
    | none =>
      if sparePasses then (if (s0.region region).aesSpare then aesFails region s0 else s0)
      else
        let s1 := endIntegrity req h unit (setCause pgSec 3 (s0.bump pgSec 0x05C))
        let s2 := raise (eventFor (some part) 4 5 0x0500 pgSec h (unit % 2 ^ 24 + space % 16 * 2 ^ 24) (tier + 16 * region)) s1
        if space = 4 then loseKeys (s2.keysOf part h) s2
        else if tier = 2 then lentLost h s2
        else if tier = 1 then nandLost h s2
        else damagePage h (if space = 0 then unit else 0) s2

/-- TAG_FAIL. -/
def execTagFail (page unit space : Nat) (req : Nat) (sparePasses : Bool) (s : State) : Host.Outcome State Fault Refusal :=
  ok (whenReady (tagFail page unit space req sparePasses) s)

/-- AES_KNOWN_ANSWER_TEST: a failed test brings in the spare; `bad` are the pages written since the last passing test of which a unit
fails its tag. -/
def aesTest (region : Nat) (passed : Bool) (bad : List Nat) (s : State) : State :=
  if passed ∨ 16 ≤ region then s else bad.foldl (fun t h => damagePage h 0 t) (aesFails region s)

/-- AES_KNOWN_ANSWER_TEST. -/
def execAesKnownAnswerTest (region : Nat) (passed : Bool) (bad : List Nat) (s : State) : Host.Outcome State Fault Refusal :=
  ok (whenReady (aesTest region passed bad) s)

/-! ## SRAM (Table 14-1) -/

/-- A pod lost the state of a unit set: the set restarts once from its first page, and a second loss ends the request. -/
def setLost (i set : Nat) (s : State) : State :=
  match s.live i with
  | none => s
  | some r =>
    if r.kind ≠ .query then s
    else if s.res.setLost.contains (i, set) then endIntegrity i 0 0 s
    else
      let s1 : State := { s with res := { s.res with setLost := s.res.setLost ++ [(i, set)] } }
      (List.range 16).foldl (fun t region =>
        if (List.range 28).any fun k => (t.pod region k).hasSet i set then restartSet region i set t else t) s1

/-- An uncorrectable word of SRAM, by structure: 0 a pod's page buffer (refilled), 1 a profile cache (`loc` is region × 28 + pod; the entries reload),
2 unit state (`loc` is request × 2^16 + set), 3 map SRAM (`loc` is the segment), 4 a root counter (`loc` is the partition), 5 the
directory (`loc` is the entry), 6 any other SRAM. -/
def sramLost (kind loc : Nat) (s0 : State) : State :=
  let page := if kind ≤ 1 then 0x100 + loc else if kind = 3 then pgFlm else if kind = 4 then pgSec else pgMex
  let s1 := (strike page 2 s0).getD s0
  let s := if kind = 5 then s1 else s1.bump pgRes 0x08C
  if kind = 1 then s.updPod (loc / 28) (loc % 28) fun y => { y with cache := [] }
  else if kind = 2 then setLost (loc / 65536) (loc % 65536) s
  else if kind = 3 then
    let s2 := raise (event 4 3 0x0301 pgFlm) s
    let f := s2.flash
    if Map.has f.segDirty loc then resetFlash s2 else s2.setFlash { f with segSram := f.segSram.filter (· != loc) }
  else if kind = 4 then
    let s2 : State := { s with sec := { s.sec with rootLost := if s.sec.rootLost.contains loc then s.sec.rootLost else s.sec.rootLost ++ [loc] } }
    raise (eventFor (some (loc % 256)) 4 3 0x0301 pgSec) s2
  else if kind = 5 then { s with mex := { s.mex with dir := Map.adjust s.mex.dir loc fun e => { e with bad := true } } }
  else s

/-- SRAM_UNCORR: a word that shows these errors is read. One symbol is corrected and counted; more are handled by the structure. The directory
alone has parity in place of the code (R332). -/
def sramUncorr (kind loc : Nat) (errs : List (Nat × Nat)) (s : State) : State :=
  if kind = 5 ∨ beyondCode errs then sramLost kind loc s
  else if symbolsCorrected errs = 0 then s
  else s.bump pgRes 0x088

/-- SRAM_UNCORR. -/
def execSramUncorr (place : SramPlace) (errs : List (Nat × Nat)) (s : State) : Host.Outcome State Fault Refusal :=
  ok (whenReady (sramUncorr place.kind place.loc errs) s)

/-- PATROL_SCRUB: `bytes` of HBM or SRAM have been read, with words that show errors: corrected ones are written back and counted, an
uncorrectable one is handled as if a request had read it. HBM is read for no partition, over VC3. `loc` names the HBM row, or an SRAM
structure × 2^32 and its place. -/
def patrolScrub (hbm : Bool) (loc bytes : Nat) (words : List (List (Nat × Nat))) (page slot space : Nat) (s : State) : State :=
  let s1 := countUp pgRes 0x0B0 bytes { s with res := { s.res with scrubAt := s.time } }
  if hbm then
    let r := rowRegion (loc % 2 ^ 40)
    hbmWords (loc % 2 ^ 40) words page slot space (hbmAccess r noHolder true bytes (crossDie (r / 4) 3 true bytes s1))
  else words.foldl (fun t w => sramUncorr (loc / 2 ^ 32) (loc % 2 ^ 32) w t) s1

/-- PATROL_SCRUB. -/
def execPatrolScrub (hbm : Bool) (loc bytes : Nat) (words : List (List (Nat × Nat))) (lies : HbmUse) (s : State) :
    Host.Outcome State Fault Refusal :=
  ok (whenReady (patrolScrub hbm loc bytes words lies.page lies.slot lies.space) s)

/-! ## Paths, links, the Keeper and watchdogs (R340, R341, R343) -/

/-- A die fails: its four regions are retired. -/
def failDie (d : Nat) (s : State) : State :=
  (List.range 4).foldl (fun t k => retireRegion (4 * d + k) t) (setCause (pgDie d) 2 (s.setField (pgDie d) 0x044 0 1 0))

/-- FLIT_ERROR: a flit or word was received in these forms, each after an uncorrectable one resent from the source buffer. A path that
has resent four times in vain is failed; a die-to-die link goes on (R20, R334). `network` is 0 a region crossbar, 1 a die crossbar, 2
the NoC on the I/O die, 3 a die-to-die link, whose corrected symbols are counted. -/
def flitError (network loc : Nat) (words : List (List (Nat × Nat))) (s0 : State) : State :=
  let bad := (words.takeWhile beyondCode).length
  let resent := if network = 3 then bad else min bad 4
  let fixed := match (words.drop bad).head? with | some w => symbolsCorrected w | none => 0
  let s1 := if network = 3 then
      ((((if bad = 0 then none else strike (pgDie loc) 8 s0).getD s0).bump (pgDie loc) 0x054 resent).bump (pgDie loc) 0x050 fixed)
    else s0
  let s := s1.bump pgRes 0x090 resent
  let key := network * 65536 + loc
  if bad ≤ 4 ∨ network = 3 ∨ s.res.failedPaths.contains key then s
  else
    let s2 : State := { s with res := { s.res with failedPaths := s.res.failedPaths ++ [key] } }
    let s3 := raise (event 3 3 0x0305 pgRes) s2
    if network = 0 then retireRegion loc s3
    else if network = 1 then failDie loc s3
    else stopNode (raise (event 5 2 0x0207 pgRes) s3)

/-- FLIT_ERROR. -/
def execFlitError (network loc : Nat) (words : List (List (Nat × Nat))) (s : State) : Host.Outcome State Fault Refusal :=
  ok (whenReady (fun t => if network ≤ 3 ∧ loc < 16 ∧ (network = 0 ∨ loc < 4) then flitError network loc words t else t) s)

/-- D2D_REPAIR: a lane of a module is replaced by a redundant lane at a retrain; a fifth lost lane fails the die. -/
def d2dRepair (die module : Nat) (s : State) : State :=
  let used := s.field (pgDie die) 0x048 (4 * module) 3
  if 4 ≤ used then failDie die (s.setReg (pgDie die) 0x044 (withBits (s.reg (pgDie die) 0x044) (4 + module) 1 0))
  else
    let s1 := (s.setField (pgDie die) 0x048 (4 * module) 3 (used + 1)).bump (pgDie die) 0x058
    raise (event 1 3 0x0306 (pgDie die)) (setCause (pgDie die) 1 (setCause (pgDie die) 0 (spareUsed (3 - used) s1)))

/-- D2D_REPAIR. -/
def execD2dRepair (die module : Nat) (s : State) : Host.Outcome State Fault Refusal :=
  ok (whenReady (fun t => if die < 4 ∧ module < 4 then d2dRepair die module t else t) s)

/-- The requests whose chaining ran on a failed Keeper pair commit DEADLINE (R340): which of the MERGEs they are is free. -/
def loseChains (s : State) : State :=
  let ms := Map.keys (Map.filterKV s.reqs fun _ r => r.kind == .merge && r.status.isNone)
  ms.foldl (fun t i =>
    let (n, u) := t.draw
    if Config.freeChoice n % 2 = 0 then endMerge i .deadline noneDecided noneDecided u else u) s

/-- KEEPER_FAULT: a pair's cores disagree; the spare pair takes over, then one pair goes on alone, then the node stops. -/
def keeperFault (s : State) : State :=
  if s.res.keeperSpare then
    loseChains (raise (event 1 2 0x0204 pgRes) (spareUsed 0 { s with res := { s.res with keeperSpare := false } }))
  else if 1 < s.res.keeperPairs then
    loseChains (raise (event 1 2 0x0204 pgRes) (setCause pgRes 3 { s with res := { s.res with keeperPairs := 1 } }))
  else stopNode (raise (event 5 2 0x0206 pgRes) { s with res := { s.res with keeperPairs := 0 } })

/-- KEEPER_FAULT. -/
def execKeeperFault (_pair : Nat) (s : State) : Host.Outcome State Fault Refusal := ok (whenReady keeperFault s)

/-- The reset domain of a block that a watchdog covers: 0 a region dispatcher, 1 the query combiner, 2 the PFT engine, 3 the flash media
controller, 4 the Match Engine. -/
def watchdogDomain (block region : Nat) : Option Nat :=
  if block = 0 then (if region < 16 then some region else none)
  else if block = 1 then some 16
  else if block = 2 then some 17
  else if block = 3 then some 19
  else if block = 4 then some 20
  else none

/-- The page of a domain on which progress may be stopped by an injection. -/
def watchdogPage (d : Nat) : Nat := if d < 16 then pgRegn d else if d = 17 then pgPft else if d = 19 then pgFlm else pgMex

/-- WATCHDOG: a block with work has made no progress for 10 ms, and the hardware resets it, drained or after 1 ms undrained (which of the
two is free). -/
def watchdog (d : Nat) (s0 : State) : State :=
  let s1 := (strike (watchdogPage d) 7 s0).getD s0
  let (n, s2) := s1.draw
  let drained := Config.freeChoice n % 2 = 0 ∧ (d ≠ 20 ∨ s2.mex.changes = [])
  let s3 := setCause pgRes 8 (s2.bump pgRes 0x094)
  raise (event 4 2 0x0205 (if d = 16 then pgRes else watchdogPage d)) (pulseWith 0x080 d (decide drained) (disarm d s3))

/-- WATCHDOG. -/
def execWatchdog (block region : Nat) (s : State) : Host.Outcome State Fault Refusal :=
  ok (whenReady (fun t => match watchdogDomain block region with | some d => watchdog d t | none => t) s)

/-! ## Margins (R353) -/

/-- MARGIN: a margin of a kind and index has been measured. -/
def margin (kind index value : Nat) (s : State) : State :=
  let win := kind * 256 + index
  let low := min (s.field pgRes 0x064 16 16 win) value
  let s1 := s.setReg pgRes 0x064 (value % 65536 + low * 65536) win
  let thr := s.field pgRes 0x060 0 16 kind
  let key := kind * 65536 + index
  let put (v : Nat) : State := { s1 with res := { s1.res with marginRaised := Map.insert s1.res.marginRaised key v } }
  match Map.find? s.res.marginRaised key with
  | none =>
    if value < thr then
      raise (event 2 7 0x0700 pgRes (kind + index * 256 + value * 2 ^ 32)) (setCause pgRes 4 ((put 0).bump pgRes 0x098))
    else s1
  | some since =>
    if value * 10 ≤ thr * 11 then put 0
    else if since = 0 then put (s.time + 1)
    else if since + hour ≤ s.time + 1 then { s1 with res := { s1.res with marginRaised := Map.erase s1.res.marginRaised key } }
    else s1

/-- MARGIN. -/
def execMargin (kind index value : Nat) (s : State) : Host.Outcome State Fault Refusal :=
  ok (whenReady (fun t => if kind ≤ 4 ∧ index < 256 ∧ value < 65536 then margin kind index value t else t) s)

/-! ## PG_FORCE (R411) -/

/-- Whether Table 18-3 lists a fault for a page's block. -/
def forceListed (page kind : Nat) : Bool :=
  match blockOf page with
  | some .pod => kind == 1 || kind == 2 || kind == 3 || kind == 4
  | some .regn => kind == 1 || kind == 2 || kind == 5 || kind == 7
  | some .die => kind == 1 || kind == 2 || kind == 8
  | some .hbm => kind == 1 || kind == 2
  | some .flm => kind == 1 || kind == 2 || kind == 7
  | some .sec => kind == 1 || kind == 2
  | some .mex => kind == 1 || kind == 2 || kind == 6 || kind == 7
  | some .pft => kind == 7
  | _ => false

/-- A write of PG_FORCE arms one injection; one that R411 does not accept is ignored. -/
def forcePage (master page value : Nat) (s : State) : State :=
  let kind := bitsOf value 0 8
  let target := bitsOf value 8 8
  if s.right master page < 3 ∨ s.field pgGlb 0x04C 0 1 = 0 ∨ !forceListed page kind
      ∨ Map.has s.res.armed page then s
  else
    regRecord master page 0x018 0 (value % 65536) 0
      { s with res := { s.res with armed := Map.insert s.res.armed page (kind, target) } }

end Sys2Proof.Machine
end

