-- ==== Sys2Proof/Machine/Security.lean ====
section
/-! DEFINITION. The security processor's mailbox and SPDM responder (R312 to R316), key delivery (R314), access rights (R319, R320, R329) and
the LOG page's operations (R326, R327, R330). Codes of SPDM messages are those of DSP0274 1.2 (log entry 36). -/
namespace Sys2Proof.Machine

/-- Changes the security processor. -/
def State.setSec (s : State) (x : Sec) : State := { s with sec := x }

/-! ## The access digest (R320) -/

/-- The right of master `m` as two bits of a table's byte. -/
def State.tableByte (s : State) (target b : Nat) : Byte :=
  BitVec.ofNat 8 (s.right (4 * b) target + 4 * s.right (4 * b + 1) target + 16 * s.right (4 * b + 2) target + 64 * s.right (4 * b + 3) target)

/-- The digest over the 1,280 tables in target order. -/
def State.accessDigest (s : State) : Bytes :=
  Sha256.hash ((List.range 1280).flatMap fun t => (List.range 256).map fun b => s.tableByte t b)

/-- ACC_DIGEST_READY: ACC_DIGEST holds the digest of the tables. -/
def accDigestReady (s : State) : State :=
  if s.log.digestDue then { s with log := { s.log with digestDue := false, digest := some s.accessDigest } } else s

/-- ACC_DIGEST_READY. -/
def execAccDigestReady (s : State) : Host.Outcome State Fault Refusal := ok (whenReady accDigestReady s)

/-- A write of ACC_RIGHT: sets the right of every master from FIRST to LAST on TARGET (R329). -/
def setRights (master value : Nat) (s : State) : State :=
  let target := s.sel master pgAcc 0x040 % 2048
  let sel := s.sel master pgAcc 0x044
  let first := bitsOf sel 0 10
  let last := max first (bitsOf sel 16 10)
  let r := value % 4
  let ms := (List.range (last + 1 - first)).map (· + first)
  let changed := ms.any fun m => s.right m target != r
  let s1 := ms.foldl (fun t m => changeRight master target m r t) s
  if changed then setCause pgAcc 0 s1 else s1

/-! ## Measurements (R315, R316) -/

/-- A part number of Table 0-1, in ASCII: the stepping and the cooling rating tell the parts apart (R1). -/
def partNumber (liquid stepA1 : Bool) : Bytes :=
  ("PX4820-".toList ++ (if stepA1 then "A1-" else "A0-").toList ++ (if liquid then "L" else "F").toList).map fun c =>
    BitVec.ofNat 8 c.toNat

/-- Raw fuse and ROM state, digests and configuration: a block's value type and value. -/
def State.measurement (s : State) (idx : Nat) : Option (Nat × Bytes) :=
  if idx = 1 then
    some (0x80, slice Config.bootRomVersion 0 4
      ++ slice (Config.fuseHead s.fuses.liquid s.fuses.stepA1 s.fuses.production s.fuses.debugOpen) 0 8
      ++ (match s.fuses.opKey with | some k => Sha256.hash k | none => zeros 32))
  else if idx = 2 then some (0x01, s.boot.fwDigest)
  else if idx = 3 then some (0x03, s.boot.cfgDigest)
  else if idx = 4 then some (0x03, s.accessDigest)
  else if idx = 5 then some (0x84, toLE 8 s.log.seq ++ s.log.head)
  else if idx = 6 then
    some (0x82, toLE 8 s.fuses.serial ++ partNumber s.fuses.liquid s.fuses.stepA1 ++ slice Config.partPadding 0 5 ++ toLE 2 s.nodeId ++ toLE 4 s.boot.count)
  else if idx = 0xFD then some (0x84, toLE 4 (s.reg pgSec 0x058))
  else if 0x10 ≤ idx ∧ idx < 0x50 then
    match Map.find? s.prof.slots (idx - 0x10) with
    | some x =>
      if x.st = 1 then none
      else some (0x83, toLE 2 x.id ++ toLE 2 x.ver ++ BitVec.ofNat 8 x.st :: zeros 3 ++ x.wdig ++ x.pdig ++ x.qdig)
    | none => none
  else none

/-- One measurement block in the DMTF format. -/
def measBlock (idx : Nat) (x : Nat × Bytes) : Bytes :=
  BitVec.ofNat 8 idx :: 1 :: toLE 2 (x.2.length + 3) ++ BitVec.ofNat 8 x.1 :: toLE 2 x.2.length ++ x.2

/-- The blocks that exist, by index. -/
def State.measIndices (s : State) : List Nat := (List.range 256).filter fun k => (s.measurement k).isSome

/-- The blocks of a list of indices. -/
def State.measBlocks (s : State) (l : List Nat) : List Bytes := l.filterMap fun k => (s.measurement k).map (measBlock k)

/-- The summary hash of all measurements. -/
def State.measSummary (s : State) : Bytes := Sha256.hash (s.measBlocks s.measIndices).flatten

/-! ## The mailbox (R313) -/

/-- The bytes of the mailbox. -/
def State.mailBytes (s : State) (n : Nat) : Bytes := slice ((List.range 512).flatMap fun k => toLE 4 (s.reg pgSec (0x800 + 4 * k))) 0 n

/-- Puts bytes into the mailbox. -/
def putMail (b : Bytes) (s : State) : State :=
  (List.range (ceilDiv b.length 4)).foldl (fun t k => t.setReg pgSec (0x800 + 4 * k) (leAt b (4 * k) 4)) s

/-- The message in the mailbox: the session it came in, if any, and the SPDM message; a number where it cannot be read, which is the
SPDM error code of the answer. -/
def State.mail (s : State) : Except Nat (Option Nat × Bytes) :=
  let b := s.mailBytes s.sec.len
  let typ := byteAt b 0
  if !zerosAt b 1 3 then .error 0x01
  else if typ = 0 then .ok (none, b.drop 4)
  else if typ = 1 then
    match Map.find? s.sec.sessions (leAt b 4 4) with
    | none => .error 0x0B
    | some x => match Config.aeadOpen x.keys x.seqNo (b.drop 4) with
      | some m => .ok (some (leAt b 4 4), m)
      | none => .error 0x06
  else .error 0x01

/-- The longest message. -/
def mailMax : Nat := 2048

/-- Writes a response into the mailbox, sealed where it belongs to a session; MBX_DONE is raised (R313). -/
def respond (sess : Option Nat) (m : Bytes) (s : State) : State :=
  let body : Nat × Bytes := match sess.bind fun k => (Map.find? s.sec.sessions k).map fun x => (k, x) with
    | some (k, x) => (1, toLE 4 k ++ Config.aeadSeal x.keys x.seqNo m)
    | none => (0, m)
  let whole := BitVec.ofNat 8 body.1 :: zeros 3 ++ body.2
  let out := if mailMax < whole.length then (0 : Byte) :: zeros 3 ++ [0x12, 0x7F, 0x0D, 0] else whole
  let sessions := match sess with | some k => Map.adjust s.sec.sessions k fun x => { x with seqNo := x.seqNo + 1, lastHb := s.time } | none => s.sec.sessions
  let s1 := putMail out s
  setCause pgSec 0 (s1.setSec { s1.sec with busy := false, resp := true, rlen := out.length, lastWrite := s.time, sessions })

/-- An SPDM ERROR response. -/
def respondError (sess : Option Nat) (code : Nat) (s : State) : State :=
  respond sess [0x12, 0x7F, BitVec.ofNat 8 code, 0] (s.bump pgSec 0x060)

/-- Request codes that the responder serves (Table 13-3). -/
def spdmCodes : List Nat := [0x81, 0x82, 0x83, 0x84, 0xE0, 0xE1, 0xE3, 0xE4, 0xE5, 0xE8, 0xE9, 0xEC, 0xFE]

/-- Payload of a VENDOR_DEFINED_REQUEST of R314: none where its IDs are others. -/
def vendorPayload (m : Bytes) : Option Bytes :=
  if leAt m 4 2 = 3 ∧ byteAt m 6 = 2 ∧ leAt m 7 2 = 0x1F82 then some (slice m 11 (leAt m 9 2)) else none

/-- The answer that needs no step of the responder: none where a step of a served request follows. -/
def earlyError (s : State) : Option (Option Nat × Nat) :=
  match s.mail with
  | .error c => some (none, c)
  | .ok (sess, m) =>
    let code := byteAt m 1
    if m.length < 4 then some (sess, 0x01)
    else if !spdmCodes.contains code then some (sess, 0x07)
    else if byteAt m 0 ≠ (if code = 0x84 then 0x10 else 0x12) then some (sess, 0x41)
    else if code = 0xFE ∧ ((vendorPayload m).isNone ∨ !([1, 2].contains (byteAt ((vendorPayload m).getD []) 0))) then some (sess, 0x07)
    else none

/-- SEC_MBX_CTRL.CLAIM. -/
def mailClaim (master : Nat) (s : State) : State :=
  if s.sec.owner.isSome then s
  else s.setSec { s.sec with owner := some master, lastWrite := s.time, resp := false, rlen := 0, len := 0 }

/-- SEC_MBX_CTRL.RELEASE. -/
def mailRelease (master : Nat) (s : State) : State :=
  if s.sec.owner = some master ∧ !s.sec.busy then s.setSec { s.sec with owner := none } else s

/-- SEC_MBX_CTRL.GO: the exchange starts; a message that no step serves is answered with an error. -/
def mailGo (master : Nat) (s : State) : State :=
  if s.sec.owner ≠ some master ∨ s.sec.busy ∨ s.sec.len < 4 then s
  else
    let s1 := s.setSec { s.sec with busy := true, resp := false, lastWrite := s.time }
    match earlyError s1 with
    | some (sess, c) => respondError sess c s1
    | none => s1

/-- A write of SEC_MBX_CTRL (R313): LEN by the owner, then CLAIM, RELEASE and GO. -/
def mailControl (master value : Nat) (s : State) : State :=
  let len := bitsOf value 16 12
  let s1 := if s.sec.owner = some master ∧ !s.sec.busy ∧ 4 ≤ len ∧ len ≤ mailMax then
      s.setSec { s.sec with len, lastWrite := s.time } else s
  let s2 := if bitOf value 0 then mailClaim master s1 else s1
  let s3 := if bitOf value 2 then mailGo master s2 else s2
  if bitOf value 1 then mailRelease master s3 else s3

/-- A write of a mailbox dword: another master's, or one during an exchange, is ignored. -/
def mailData (master off value : Nat) (s : State) : State :=
  if s.sec.owner = some master ∧ !s.sec.busy then
    (s.setReg pgSec off value).setSec { s.sec with lastWrite := s.time } else s

/-- MBX_CLAIM_TIMEOUT: 100 ms without a write by the owner and with no exchange running. -/
def mailTimeout (s : State) : State :=
  if s.sec.owner.isSome ∧ !s.sec.busy ∧ s.sec.lastWrite + 100000000 ≤ s.time then s.setSec { s.sec with owner := none } else s

/-- MBX_CLAIM_TIMEOUT. -/
def execMbxClaimTimeout (s : State) : Host.Outcome State Fault Refusal := ok (whenReady mailTimeout s)

/-! ## The responder -/

/-- A step of the responder for one request code: it takes the message, and answers a response or an error code. -/
def onRequest (code : Nat) (f : Option Nat → Bytes → State → Except Nat Bytes × State) (s : State) : State :=
  if !s.sec.busy then s
  else match s.mail with
    | .error _ => s
    | .ok (sess, m) =>
      if byteAt m 1 ≠ code then s
      else match f sess m s with
        | (.ok r, t) => respond sess r t
        | (.error c, t) => respondError sess c t

/-- Adds a request and its response to the transcript. -/
def noteSpdm (m r : Bytes) (s : State) : State := s.setSec { s.sec with transcript := s.sec.transcript ++ m ++ r }

/-- An answer that joins the transcript. -/
def answerWith (m r : Bytes) (s : State) : Except Nat Bytes × State := (.ok r, noteSpdm m r s)

/-- GET_VERSION: version 1.2 alone; the negotiation starts anew. -/
def getVersion (m : Bytes) (s : State) : Except Nat Bytes × State :=
  let r : Bytes := [0x10, 0x04, 0, 0, 0, 1, 0x00, 0x12]
  answerWith m r (s.setSec { s.sec with version := true, caps := false, algs := false, transcript := [] })

/-- GET_CAPABILITIES, after GET_VERSION. -/
def getCapabilities (m : Bytes) (s : State) : Except Nat Bytes × State :=
  if !s.sec.version then (.error 0x04, s)
  else answerWith m ([0x12, 0x61, 0, 0] ++ slice (Config.spdmBody 0xE1 m 0) 0 16) (s.setSec { s.sec with caps := true })

/-- NEGOTIATE_ALGORITHMS, after GET_CAPABILITIES. -/
def negotiate (m : Bytes) (s : State) : Except Nat Bytes × State :=
  if !s.sec.caps then (.error 0x04, s)
  else answerWith m ([0x12, 0x63] ++ Config.spdmBody 0xE3 m 0) (s.setSec { s.sec with algs := true })

/-- GET_DIGESTS: slot 0's chain. -/
def getDigests (m : Bytes) (s : State) : Except Nat Bytes × State :=
  if !s.sec.algs then (.error 0x04, s) else answerWith m ([0x12, 0x01, 0, 1] ++ Sha256.hash Config.certChain) s

/-- GET_CERTIFICATE: a portion of slot 0's chain. -/
def getCertificate (m : Bytes) (s : State) : Except Nat Bytes × State :=
  let off := leAt m 4 2
  let n := min (leAt m 6 2) (min (Config.certChain.length - off) (mailMax - 64))
  if !s.sec.algs then (.error 0x04, s)
  else if byteAt m 2 % 16 ≠ 0 ∨ Config.certChain.length < off then (.error 0x01, s)
  else answerWith m ([0x12, 0x02, 0, 0] ++ toLE 2 n ++ toLE 2 (Config.certChain.length - off - n) ++ slice Config.certChain off n) s

/-- CHALLENGE: the chain's hash, a nonce, the summary asked for, and a signature over the transcript. -/
def challenge (m : Bytes) (s : State) : Except Nat Bytes × State :=
  if !s.sec.algs then (.error 0x04, s)
  else if byteAt m 2 ≠ 0 then (.error 0x01, s)
  else
    let (n, s1) := s.draw
    let sum := if byteAt m 3 = 0 then [] else s.measSummary
    let r := [0x12, 0x03, 0, 1] ++ Sha256.hash Config.certChain ++ slice (Config.nonce n) 0 32 ++ sum ++ [0, 0]
    let sig := slice (Config.ecdsaSign (Sha256.hash (s.sec.transcript ++ m ++ r)) n) 0 64
    answerWith m (r ++ sig) (s1.setSec { s1.sec with transcript := [] })

/-- GET_MEASUREMENTS: the number of blocks (index 0), all of them (0xFF) or one, taken at one instant (R316). -/
def getMeasurements (m : Bytes) (s : State) : Except Nat Bytes × State :=
  let idx := byteAt m 3
  let all := s.measIndices
  let bs := if idx = 0 then [] else if idx = 0xFF then s.measBlocks all else s.measBlocks [idx]
  if !s.sec.algs then (.error 0x04, s)
  else if idx ≠ 0 ∧ bs = [] then (.error 0x01, s)
  else
    let (n, s1) := s.draw
    let body := bs.flatten
    let r := [0x12, 0x60, BitVec.ofNat 8 (if idx = 0 then all.length else 0), 0, BitVec.ofNat 8 bs.length] ++ toLE 3 body.length ++ body
      ++ slice (Config.nonce n) 0 32 ++ [0, 0]
    if bitOf (byteAt m 2) 0 then
      let sig := slice (Config.ecdsaSign (Sha256.hash (s.sec.transcript ++ m ++ r)) n) 0 64
      answerWith m (r ++ sig) (s1.setSec { s1.sec with transcript := [] })
    else answerWith m r s1

/-- The most sessions at once (Table 13-3), and the heartbeat period in ns. -/
def sessionMax : Nat := 16
def heartbeatNs : Nat := 10000000000

/-- KEY_EXCHANGE: a session's handshake starts. -/
def keyExchange (m : Bytes) (s : State) : Except Nat Bytes × State :=
  if !s.sec.algs then (.error 0x04, s)
  else if byteAt m 3 ≠ 0 then (.error 0x01, s)
  else if sessionMax ≤ s.sec.sessions.length then (.error 0x0A, s)
  else
    let (n, s1) := s.draw
    let rsp := Map.lowestFree (s.sec.sessions.map fun kv => (kv.1 / 65536, ()))
    let id := leAt m 4 2 + rsp * 65536
    let sum := if byteAt m 2 = 0 then [] else s.measSummary
    let r := [0x12, 0x64, 10, 0] ++ toLE 2 rsp ++ [0, 0] ++ slice (Config.nonce n) 0 32 ++ slice (Config.ecdhePublic n) 0 64 ++ sum
      ++ Config.spdmBody 0xE4 m n
    let sig := slice (Config.ecdsaSign (Sha256.hash (s.sec.transcript ++ m ++ r)) n) 0 64
    let keys := Config.spdmKeys (slice m 40 64) (s.sec.transcript ++ m ++ r ++ sig) n
    let out := r ++ sig ++ slice (Config.spdmVerifyData keys (s.sec.transcript ++ m ++ r ++ sig)) 0 32
    answerWith m out (s1.setSec { s1.sec with
      sessions := Map.insert s1.sec.sessions id { keys, established := false, seqNo := 0, lastHb := s.time } })

/-- Changes a session. -/
def updSession (k : Nat) (f : Session → Session) (s : State) : State := s.setSec { s.sec with sessions := Map.adjust s.sec.sessions k f }

/-- FINISH, in the session it finishes: the session keys are in force. -/
def finishSession (sess : Option Nat) (m : Bytes) (s : State) : Except Nat Bytes × State :=
  match sess.bind fun k => (Map.find? s.sec.sessions k).map fun x => (k, x) with
  | none => (.error 0x0B, s)
  | some (k, x) =>
    if x.established then (.error 0x04, s)
    else if bitOf (byteAt m 2) 0 ∨ slice m 4 32 ≠ slice (Config.spdmVerifyData x.keys (s.sec.transcript ++ slice m 0 4)) 0 32 then
      (.error 0x06, s)
    else (.ok [0x12, 0x65, 0, 0], updSession k (fun y => { y with established := true, lastHb := s.time }) s)

/-- Runs a request that belongs inside an established session. -/
def inSession (sess : Option Nat) (s : State) (f : Nat → Session → Except Nat Bytes × State) : Except Nat Bytes × State :=
  match sess.bind fun k => (Map.find? s.sec.sessions k).map fun x => (k, x) with
  | none => (.error 0x0B, s)
  | some (k, x) => if x.established then f k x else (.error 0x04, s)

/-- HEARTBEAT. -/
def heartbeatSession (sess : Option Nat) (_m : Bytes) (s : State) : Except Nat Bytes × State :=
  inSession sess s fun k _ => (.ok [0x12, 0x68, 0, 0], updSession k (fun y => { y with lastHb := s.time }) s)

/-- KEY_UPDATE: 1 the requester's key, 2 both, 3 verify. -/
def updateKey (sess : Option Nat) (m : Bytes) (s : State) : Except Nat Bytes × State :=
  inSession sess s fun k x =>
    let op := byteAt m 2
    if op = 0 ∨ 3 < op then (.error 0x01, s)
    else
      let (n, s1) := s.draw
      let t := if op = 3 then s1 else updSession k (fun y => { y with keys := Config.spdmKeys x.keys m n }) s1
      (.ok ([0x12, 0x69] ++ slice m 2 2), t)

/-- Ends a session. -/
def dropSession (k : Nat) (s : State) : State := s.setSec { s.sec with sessions := Map.erase s.sec.sessions k }

/-- GET_VERSION. -/
def execGetVersion (s : State) : Host.Outcome State Fault Refusal := ok (whenReady (whenOpen 23 (onRequest 0x84 fun _ m t => getVersion m t)) s)
/-- GET_CAPABILITIES. -/
def execGetCapabilities (s : State) : Host.Outcome State Fault Refusal :=
  ok (whenReady (whenOpen 23 (onRequest 0xE1 fun _ m t => getCapabilities m t)) s)
/-- NEGOTIATE_ALGORITHMS. -/
def execNegotiateAlgorithms (s : State) : Host.Outcome State Fault Refusal :=
  ok (whenReady (whenOpen 23 (onRequest 0xE3 fun _ m t => negotiate m t)) s)
/-- GET_DIGESTS. -/
def execGetDigests (s : State) : Host.Outcome State Fault Refusal := ok (whenReady (whenOpen 23 (onRequest 0x81 fun _ m t => getDigests m t)) s)
/-- GET_CERTIFICATE. -/
def execGetCertificate (s : State) : Host.Outcome State Fault Refusal :=
  ok (whenReady (whenOpen 23 (onRequest 0x82 fun _ m t => getCertificate m t)) s)
/-- CHALLENGE. -/
def execChallenge (s : State) : Host.Outcome State Fault Refusal := ok (whenReady (whenOpen 23 (onRequest 0x83 fun _ m t => challenge m t)) s)
/-- GET_MEASUREMENTS. -/
def execGetMeasurements (s : State) : Host.Outcome State Fault Refusal :=
  ok (whenReady (whenOpen 23 (onRequest 0xE0 fun _ m t => getMeasurements m t)) s)
/-- KEY_EXCHANGE. -/
def execKeyExchange (s : State) : Host.Outcome State Fault Refusal := ok (whenReady (whenOpen 23 (onRequest 0xE4 fun _ m t => keyExchange m t)) s)
/-- FINISH. -/
def execFinish (s : State) : Host.Outcome State Fault Refusal := ok (whenReady (whenOpen 23 (onRequest 0xE5 finishSession)) s)
/-- SPDM_HEARTBEAT. -/
def execSpdmHeartbeat (s : State) : Host.Outcome State Fault Refusal := ok (whenReady (whenOpen 23 (onRequest 0xE8 heartbeatSession)) s)
/-- KEY_UPDATE. -/
def execKeyUpdate (s : State) : Host.Outcome State Fault Refusal := ok (whenReady (whenOpen 23 (onRequest 0xE9 updateKey)) s)

/-- END_SESSION: the response still travels in the session it ends. -/
def endSession (s : State) : State :=
  let t := onRequest 0xEC (fun sess _ u => inSession sess u fun _ _ => (.ok [0x12, 0x6C, 0, 0], u)) s
  match s.mail with
  | .ok (some k, m) => if s.sec.busy ∧ byteAt m 1 = 0xEC then dropSession k t else t
  | _ => t

/-- END_SESSION. -/
def execEndSession (s : State) : Host.Outcome State Fault Refusal := ok (whenReady (whenOpen 23 endSession) s)

/-- SPDM_HEARTBEAT_TIMEOUT: a session has been silent for two heartbeat periods, and ends. -/
def heartbeatTimeout (k : Nat) (s : State) : State :=
  match Map.find? s.sec.sessions k with
  | some x => if x.lastHb + 2 * heartbeatNs ≤ s.time then dropSession k s else s
  | none => s

/-- SPDM_HEARTBEAT_TIMEOUT. -/
def execSpdmHeartbeatTimeout (session : Nat) (s : State) : Host.Outcome State Fault Refusal := ok (whenReady (heartbeatTimeout session) s)

/-! ## Key delivery (R314) -/

/-- Whether a partition holds a conversation, page or mask object. -/
def State.holdsAny (s : State) (part : Nat) : Bool :=
  s.convs.any (fun kv => kv.2.part == part) || s.pages.any (fun kv => kv.2.part == part) || s.masks.any fun kv => kv.2.part == part

/-- RESULT, by the first case of R314 that applies. -/
def State.keyResult (s : State) (sess : Option Nat) (p : Bytes) : Nat :=
  let part := byteAt p 1
  let inside : Bool := match sess.bind fun k => Map.find? s.sec.sessions k with | some x => x.established | none => false
  if !inside then 5
  else if p.length ≠ 40 ∨ 0xFFF < leAt p 2 2 ∨ !zerosAt p 4 4 ∨ (byteAt p 0 = 2 ∧ !zerosAt p 8 32) then 4
  else match s.part? part with
    | none => 1
    | some x =>
      if x.state ≠ .active then 1
      else if x.tenant ≠ leAt p 2 2 then 2
      else if byteAt p 0 = 1 ∧ (s.keyState part = 2 ∨ (s.keyState part = 1 ∧ s.holdsAny part)) then 3
      else 0

/-- The first 4 bytes of a partition's key check value, as a number. -/
def State.kcv (s : State) (part : Nat) : Nat := leAt (kcvOf (s.partKeys part)) 0 4

/-- Puts a delivered key into a slot at one instant, with its KEY record. -/
def deliverKey (part : Nat) (key : Bytes) (s : State) : State :=
  let old := s.keyState part
  let s1 := s.setSec { s.sec with keys := Map.insert s.sec.keys part { delivered := true, key },
                                  rootLost := s.sec.rootLost.filter (· != part) }
  logRec (s.sec.owner.getD 0x081) 3 part 0 old (2 + s1.kcv part * 2 ^ 32) (setCause pgSec 1 s1)

/-- A VENDOR_DEFINED_RESPONSE with the payload of R314. -/
def State.keyAnswer (s : State) (op result part : Nat) : Bytes :=
  let st := s.keyState part
  [0x12, 0x7E, 0, 0, 3, 0, 2, 0x82, 0x1F, 8, 0, BitVec.ofNat 8 op, BitVec.ofNat 8 result, BitVec.ofNat 8 st, 0]
    ++ toLE 4 (if st = 2 then s.kcv part else 0)

/-- A vendor request with an OP. -/
def onVendor (op : Nat) (s : State) : State :=
  match s.mail with
  | .ok (sess, m) =>
    let p := (vendorPayload m).getD []
    if byteAt m 1 ≠ 0xFE ∨ byteAt p 0 ≠ op then s
    else onRequest 0xFE (fun _ _ t =>
      let r := t.keyResult sess p
      let u := if op = 1 ∧ r = 0 then deliverKey (byteAt p 1) (slice p 8 32) t else t
      (.ok (u.keyAnswer op r (byteAt p 1)), u)) s
  | .error _ => s

/-- DELIVER_KEY. -/
def execDeliverKey (s : State) : Host.Outcome State Fault Refusal := ok (whenReady (whenOpen 23 (onVendor 1)) s)
/-- KEY_STATUS. -/
def execKeyStatus (s : State) : Host.Outcome State Fault Refusal := ok (whenReady (whenOpen 23 (onVendor 2)) s)

/-! ## The LOG page (R326, R327, R330) -/

/-- A write of LOG_MARK_HI appends the MARK record. -/
def logMark (master : Nat) (s : State) : State :=
  setCause pgLog 3 (logRec master 4 0 0 0 (s.reg pgLog 0x068 + s.reg pgLog 0x06C * 2 ^ 32) s)

/-- The record with a SEQ, while it is in the ring. -/
def State.logAt (s : State) (seq : Nat) : Option LogRec := s.log.recs.find? fun r => r.seq == seq

/-- A write of LOG_SEL_LO latches the record that the master's selector names. -/
def logSelect (master : Nat) (s : State) : State :=
  let seq := s.sel master pgLog 0x050 + s.sel master pgLog 0x054 * 2 ^ 32
  { s with log := { s.log with marks := Map.insert s.log.marks master (s.logAt seq) } }

/-- The CRC-32 of a checkpoint's bytes (reflected 0x04C11DB7). -/
def crcStep (c : Nat) : Nat → Nat
  | 0 => c
  | n + 1 => crcStep (if c % 2 = 1 then (c / 2) ^^^ 0xEDB88320 else c / 2) n
def crc32 (b : Bytes) : Nat := (b.foldl (fun c x => crcStep (c ^^^ x.toNat) 8) 0xFFFFFFFF) ^^^ 0xFFFFFFFF

/-- A checkpoint's 64 bytes (R380). -/
def ckptBytes (seq count : Nat) (head : Bytes) : Bytes :=
  let b := toLE 8 seq ++ toLE 4 count ++ zeros 4 ++ slice head 0 32
  b ++ toLE 4 (crc32 b) ++ zeros 12

/-- Writes a record of a wrapping area: a sector is erased just before its first slot is written (R380). -/
def writeSlot (base size idx : Nat) (b : Bytes) (m : Map Byte) : Map Byte :=
  let a := base + idx * size
  smProgram (if a % 0x10000 = 0 then smErase m a else m) a b

/-- Checkpoint slots. -/
def ckptSlots : Nat := 65536

/-- CKPT_WRITE_DONE: the checkpoint being written has been written, or has failed; one that fell due meanwhile is written next. -/
def ckptDone (good : Bool) (s : State) : State :=
  match s.log.ckpt with
  | none => s
  | some (seq, head) =>
    let next : State := { s with log := { s.log with ckpt := s.log.due, due := none } }
    if good then
      let s1 := next.setSmem (writeSlot 0x3800000 64 s.log.ckptIdx (ckptBytes seq s.boot.count head) s.boot.smem)
      let s2 : State := { s1 with log := { s1.log with ckptIdx := (s.log.ckptIdx + 1) % ckptSlots } }
      setCause pgLog 0 ((s2.setReg pgLog 0x060 (seq % 2 ^ 32)).setReg pgLog 0x064 (seq / 2 ^ 32))
    else setCause pgLog 1 (next.bump pgLog 0x070)

/-- CKPT_WRITE_DONE. -/
def execCkptWriteDone (ok_ : Bool) (s : State) : Host.Outcome State Fault Refusal := ok (whenReady (ckptDone ok_) s)

end Sys2Proof.Machine
end

