-- ==== Sys2Proof/Machine/Views.lean ====
section
/-! DEFINITION. What a register reads as (R279, R407 to R409, R413 to R416, R420 to R425 and the register tables of each
chapter): the window a master's selector names, the registers that show other state, and the latches of LO and HI pairs. -/
namespace Sys2Proof.Machine

/-! ## Masters and windows -/

/-- Whether a master is a host function. -/
def isHost (master : Nat) : Bool := decide (master < 0x80)

/-- Port of an HQ page. -/
def hqPort (page : Nat) : Nat := if page < 0x018 then 0 else 1

/-- HQ_Q_SEL of a master: its function's QBASE until it writes the selector (Table 12-9). -/
def State.qSel (s : State) (master page : Nat) : Nat :=
  s.sel master page 0x060 (s.field (pgHq (hqPort page) 0) 0x058 0 12 (masterFn master)) % 4096

/-- HQ_SRQ_SEL of a master: its function's partition until it writes the selector. -/
def State.srqSel (s : State) (master page : Nat) : Nat :=
  s.sel master page 0x0A0 (((s.fnPart (masterPort master) (masterFn master)).getD 0)) % 256

/-- The index of the window that an HQ register shows to a master (R300). -/
def State.hqWin (s : State) (master page off : Nat) : Nat :=
  if off = 0x054 ∨ off = 0x058 then s.sel master page 0x050 % 64
  else if 0x064 ≤ off ∧ off < 0x080 then s.qSel master page
  else if 0x080 ≤ off ∧ off < 0x098 then masterFn master
  else if 0x0A4 ≤ off ∧ off < 0x0B4 then s.srqSel master page
  else 0

/-- The index of the window that a TC register shows (R274). -/
def State.tcWin (s : State) (master off : Nat) : Nat :=
  let port := s.sel master pgTc 0x050 % 8
  let cls := s.sel master pgTc 0x058 % 8
  let ent := s.sel master pgTc 0x064 % 512
  if off = 0x054 ∨ off = 0x080 ∨ off = 0x084 ∨ off = 0x088 ∨ off = 0x098 ∨ off = 0x09C then port
  else if off = 0x05C ∨ off = 0x060 then port * 8 + cls
  else if off = 0x068 ∨ off = 0x074 ∨ off = 0x078 ∨ off = 0x0A0 then ent
  else if off = 0x06C ∨ off = 0x070 then port * 512 + ent
  else if off = 0x090 ∨ off = 0x094 then port * 256 + s.sel master pgTc 0x08C % 256
  else 0

/-- The index of the window that a register shows to a master (R414): 0 for a register that is not one of a window. -/
def State.winOf (s : State) (master page off : Nat) : Nat :=
  match blockOf page with
  | some .glb => if 0x064 ≤ off ∧ off < 0x080 then s.sel master page 0x060 % 256 else 0
  | some .prof => if 0x064 ≤ off ∧ off < 0x0E0 then s.sel master page 0x060 % 64 else 0
  | some .pft =>
    if 0x074 ≤ off ∧ off < 0x088 then s.sel master page 0x070 % 4096
    else if off = 0x098 ∨ off = 0x09C then s.sel master page 0x094 % 65536
    else if off = 0x0E8 then s.sel master page 0x0E4 % 64
    else 0
  | some .tc => s.tcWin master off
  | some .hq => s.hqWin master page off
  | some .sec => if off = 0x054 then s.sel master page 0x050 % 256 else 0
  | some .res =>
    let m := s.sel master page 0x05C
    if off = 0x060 then bitsOf m 0 3 else if off = 0x064 then bitsOf m 0 3 * 256 + bitsOf m 8 8 else 0
  | some .cmp => if (0x054 ≤ off ∧ off < 0x088) ∨ off = 0x098 then s.sel master page 0x050 % 32 else 0
  | some .pwr => if off = 0x05C then s.sel master page 0x058 % 8 else 0
  | some .pod => if off = 0x048 then s.sel master page 0x044 % 128 else 0
  | some .regn =>
    if off = 0x048 then s.sel master page 0x044 % 256
    else if 0x054 ≤ off ∧ off < 0x060 then s.sel master page 0x050 % 256
    else 0
  | _ => 0

/-- A register whose contents each master holds for itself: those whose names end in _SEL (R414), LOG_SEL_LO and HI, and
PFT_CO_ARG, PFT_CO_CONN and PFT_CO_CMD (R296). -/
def perMaster (page off : Nat) : Bool :=
  match blockOf page with
  | some .glb => off == 0x060
  | some .prof => off == 0x060
  | some .pft => off == 0x070 || off == 0x094 || off == 0x0E4 || off == 0x088 || off == 0x08C || off == 0x090
  | some .tc => off == 0x050 || off == 0x058 || off == 0x064 || off == 0x08C
  | some .hq => off == 0x050 || off == 0x060 || off == 0x0A0
  | some .sec => off == 0x050
  | some .acc => off == 0x040 || off == 0x044
  | some .log => off == 0x050 || off == 0x054
  | some .res => off == 0x05C
  | some .cmp => off == 0x050
  | some .pwr => off == 0x058
  | some .pod => off == 0x044
  | some .regn => off == 0x044 || off == 0x050
  | _ => false

/-- What a per-master register shows. -/
def State.ownSel (s : State) (master page off : Nat) : Nat :=
  match blockOf page with
  | some .hq => if off = 0x060 then s.qSel master page else if off = 0x0A0 then s.srqSel master page else s.sel master page off
  | _ => s.sel master page off

/-! ## 64-bit counters -/

/-- The HI register of a 64-bit usage counter's LO register, or of GLB_TIME and the LOG pairs that latch (R330, R415, R416). -/
def hiOf (page lo : Nat) : Option Nat :=
  match blockOf page with
  | some .glb => if lo = 0x050 then some 0x054 else none
  | some .log => if lo = 0x040 ∨ lo = 0x048 ∨ lo = 0x060 then some (lo + 4) else none
  | some .mex => if lo = 0x050 then some 0x054 else none
  | some .tier => if lo = 0x060 ∨ lo = 0x068 ∨ lo = 0x070 ∨ lo = 0x078 then some (lo + 4) else none
  | some .flm => if lo = 0x088 ∨ lo = 0x090 ∨ lo = 0x098 ∨ lo = 0x0A0 then some (lo + 4) else none
  | some .pft => if lo = 0x0A0 ∨ lo = 0x0A8 ∨ lo = 0x0B0 ∨ lo = 0x0B8 then some (lo + 4) else none
  | some .eth => if lo = 0x060 ∨ lo = 0x068 ∨ lo = 0x070 ∨ lo = 0x078 then some (lo + 4) else none
  | some .hq => if lo = 0x0D0 then some 0x0D4 else none
  | some .res => if lo = 0x0A8 ∨ lo = 0x0B0 then some (lo + 4) else none
  | some .cmp =>
    if lo = 0x064 ∨ lo = 0x06C ∨ lo = 0x074 ∨ lo = 0x07C then some (lo + 4) else if lo = 0x084 then some 0x098 else none
  | some .pod => if lo = 0x070 then some 0x074 else none
  | some .regn => if lo = 0x088 ∨ lo = 0x090 ∨ lo = 0x098 ∨ lo = 0x0A0 ∨ lo = 0x0A8 then some (lo + 4) else none
  | some .die => if lo = 0x060 ∨ lo = 0x068 then some (lo + 4) else none
  | some .hbm => if lo = 0x060 ∨ lo = 0x068 then some (lo + 4) else none
  | some .pwr => if lo = 0x070 then some 0x074 else none
  | _ => none

/-- The LO register of a HI register that latches. -/
def loOf (page hi : Nat) : Option Nat :=
  if blockOf page = some .cmp ∧ hi = 0x098 then some 0x084
  else if 4 ≤ hi ∧ hiOf page (hi - 4) = some hi then some (hi - 4) else none

/-- Oldest SEQ in the ring, or the newest while it holds nothing. -/
def Log.oldest (l : Log) : Nat := match l.recs.getLast? with | some r => r.seq | none => l.seq

/-- A slot's TIME at this instant (R366): what its counter holds, and the time for which it has been VALID since that was brought up
to date. -/
def State.slotTime (s : State) (slot : Nat) : Nat :=
  match Map.find? s.cmp.since slot with
  | some t0 => sat64 (s.cnt64 pgCmp 0x064 slot) (s.time - t0)
  | none => s.cnt64 pgCmp 0x064 slot

/-- The 64-bit value behind a LO and HI pair that latches. -/
def State.pair (s : State) (page lo win : Nat) : Nat :=
  match blockOf page with
  | some .glb => s.time
  | some .log =>
    if lo = 0x040 then s.log.seq else if lo = 0x048 then s.log.oldest else s.reg page 0x060 + 2 ^ 32 * s.reg page 0x064
  | some .cmp => if lo = 0x064 then s.slotTime win else s.cnt64 page lo win
  | _ => s.cnt64 page lo win

/-- Key of a master's latch of a pair (R415). -/
def latchKey (master page lo win : Nat) : Nat := master * 2 ^ 80 + regKey page lo win

/-- What HI reads as: the master's latch, or the current high half when it has never read LO (R415). -/
def State.hiRead (s : State) (master page lo win : Nat) : Nat :=
  match Map.find? s.latch (latchKey master page lo win) with
  | some v => v.toNat
  | none => s.pair page lo win / 2 ^ 32

/-! ## Registers that show other state -/

/-- A Bool as a bit. -/
def bit (b : Bool) : Nat := if b then 1 else 0

/-- MiB of 4 KiB blocks. -/
def mibOf (blocks : Nat) : Nat := blocks / 256

/-- GLB (Table 18-4). -/
def State.glbView (s : State) (off win : Nat) : Option Nat :=
  let p := s.part? win
  if off = 0x040 then some (s.fuses.serial % 2 ^ 32)
  else if off = 0x044 then some (s.fuses.serial / 2 ^ 32)
  else if off = 0x048 then some (bit s.fuses.liquid)
  else if off = 0x058 then some (s.entriesUsed + 65536 * s.strictRsv)
  else if off = 0x05C then some (s.parts.length + 65536 * s.freeUnits)
  else if off = 0x064 then some (match p with
    | some x => (if x.state = .active then 1 else 2) + 65536 * x.tenant
    | none => 0)
  else if off = 0x068 then some (match p with | some x => x.mode | none => 0x30)
  else if off = 0x06C then some (match p with | some x => x.units | none => 0)
  else if off = 0x070 then some (match p with | some x => x.rsv | none => 0)
  else if off = 0x074 then
    some (mibOf (s.pages.foldl (fun n kv => if kv.2.part = win then n + kv.2.hbmBlocks else n) 0))
  else if off = 0x078 then some (min 0xFFFFFFFF (Map.count s.convs fun c => c.part == win))
  else if off = 0x07C then some (match p.bind Partition.partner with | some n => n + 0x8000 | none => 0)
  else none

/-- INT (Table 18-6). -/
def State.intView (s : State) (off : Nat) : Option Nat :=
  if off = 0x048 then some (match s.summaryPages with | p :: _ => p | [] => 0x8000)
  else if off = 0x04C then some s.summaryPages.length
  else if 0x080 ≤ off ∧ off < 0x0E8 then
    some (s.summaryPages.foldl (fun n p => if p / 32 = (off - 0x080) / 4 then n + 2 ^ (p % 32) else n) 0)
  else none

/-- LOG (Table 13-11). -/
def State.logView (s : State) (master off : Nat) : Option Nat :=
  let mark := Map.find? s.log.marks master
  if off = 0x058 then some (bit (mark == some none))
  else if off = 0x05C then some s.boot.count
  else if 0x080 ≤ off ∧ off < 0x0C0 then some (match mark with
    | some (some r) => leAt r.bytes (off - 0x080) 4
    | _ => 0)
  else if 0x0C0 ≤ off ∧ off < 0x0E0 then some (leAt s.log.head (off - 0x0C0) 4)
  else none

/-- ACC (Table 13-10). ACC_RIGHT shows the right of FIRST on the selected target. -/
def State.accView (s : State) (master off : Nat) : Option Nat :=
  if off = 0x048 then some (s.right (bitsOf (s.sel master pgAcc 0x044) 0 10) (s.sel master pgAcc 0x040 % 2048))
  else if off = 0x04C then some (bit (!s.log.digestDue))
  else if 0x050 ≤ off ∧ off < 0x070 then some (leAt (s.log.digest.getD s.accessDigest) (off - 0x050) 4)
  else none

/-- PLLs that are locked (Table 16-11): those that have not lost lock, and the Ethernet one only with its reference. -/
def State.locked (s : State) : Nat :=
  (List.range 9).foldl (fun n k => if s.boot.stalledPlls.contains k ∨ (k = 3 ∧ !s.pins.ref156) then n else n + 2 ^ k) 0

/-- CLK (Table 16-11). -/
def State.clkView (s : State) (off : Nat) : Option Nat :=
  if off = 0x044 then some s.locked
  else if off = 0x048 then some (bit s.pins.ref100 + 2 * bit s.pins.ref156)
  else none

/-- RST (Table 16-12). -/
def State.rstView (s : State) (off : Nat) : Option Nat :=
  if off = 0x040 then
    some (s.boot.bootedSlot % 2 + 2 * bit s.boot.fallback + 4 * bit s.boot.recovery + 8 * bit s.boot.blankCfg
      + 256 * min 0xFFFF s.boot.skipped)
  else if off = 0x044 then some s.boot.imageSeq
  else none

/-- PWR (Table 19-9): the bucket in mJ, rounded down, and the measured rail. -/
def State.pwrView (s : State) (off win : Nat) : Option Nat :=
  if off = 0x04C then some (BitVec.ofInt 32 (s.pwr.bucket / 10)).toNat
  else if off = 0x05C then
    let x := Config.railReading win s.time
    some (x.1 % 65536 + 65536 * (if win < 3 then x.2 % 65536 else 0))
  else none

/-- SEC (Table 13-9). SEC_KEY_STAT shows another partition's slot only to a master with ADMIN on SEC or a function mapped to
that partition (R328). -/
def State.secView (s : State) (master off win : Nat) : Option Nat :=
  let o := s.sec
  if off = 0x040 then
    some (1 + 2 * bit s.fuses.opKey.isSome + 4 * bit s.fuses.debugOpen
      + 256 * Map.count o.sessions fun x => x.established)
  else if off = 0x044 then some (bit o.owner.isSome + 8 * bit o.busy + 16 * bit o.resp + 65536 * o.len)
  else if off = 0x048 then some (match o.owner with | some m => m + 0x400 | none => 0)
  else if off = 0x04C then some o.rlen
  else if off = 0x054 then
    let mine := isHost master && (s.fnPart (masterPort master) (masterFn master) == some win)
    let st := s.keyState win
    some (if mine ∨ s.right master pgSec = 3 then st + (if st = 2 then 65536 * (s.kcv win % 65536) else 0) else 0)
  else if 0x800 ≤ off then some (if o.owner = some master then s.reg pgSec off else 0)
  else none

/-- HQ (Table 12-9). -/
def State.hqView (s : State) (page off win : Nat) : Option Nat :=
  let port := hqPort page
  if off = 0x040 then some (bit (s.primary == port) + 2 * bit (s.peerLost.contains port))
  else if off = 0x04C then
    let p := s.port port
    some (bit p.linkUp + 2 * (p.speed % 8) + 16 * (p.width % 32))
  else if off = 0x078 then some ((s.queue port win).sqHead + 65536 * (s.queue port win).cqTail)
  else if off = 0x094 then some (s.eq port win).tail
  else if off = 0x0B0 then some (match Map.find? s.srqs win with
    | some q => if q.port = port then q.head + 65536 * bit (q.head == q.tail) else 0x10000
    | none => 0x10000)
  else none

/-- PFT (Table 10-8). -/
def CState.code : CState → Nat
  | .closed => 0 | .connecting => 1 | .opened => 2 | .closing => 3 | .error => 4

/-- PFT (Table 10-8). -/
def State.pftView (s : State) (off win : Nat) : Option Nat :=
  let c := Map.find? s.pft.conns win
  if off = 0x068 then some (Map.count s.pft.conns fun c => c.state != .closed)
  else if off = 0x06C then some s.pft.finHold.length
  else if off = 0x098 then some (match c with
    | some x => x.state.code + 8 * bit x.keeper + 16 * (x.node % 4096) + 65536 * (if x.keeper then 0 else x.part)
    | none => 0)
  else if off = 0x09C then some (match c with | some x => x.pkts.length | none => 0)
  else none

/-- ETH (Table 10-9). -/
def State.ethView (s : State) (port off : Nat) : Option Nat :=
  if off = 0x040 then
    let up := s.portUp port
    let r := s.portRate port
    let rate := if !up then 0 else if 800 ≤ r then 3 else if 400 ≤ r then 2 else 1
    some (bit up + 2 * rate + 8 * bit (Map.has s.pft.degraded port) + 16 * bit (Config.modulePresent port s.time)
      + 256 * (if up then s.portLanes port else 0))
  else none

/-- TC (Table 11-3). -/
def State.tcView (s : State) (off win : Nat) : Option Nat :=
  if off = 0x080 then
    let g := s.gate win
    some (withBits (s.reg pgTc 0x080 win) 17 1 (bit g.pend.isSome))
  else if off = 0x098 then some (cycleOf (s.gate win).op)
  else if off = 0x09C then
    let g := s.gate win
    some (g.cur + 256 * g.bits + 65536 * (if s.portUp win then s.guardBand win / 8 else 0))
  else none

/-- The most entries that one bank holds. -/
def Mex.bankMax (m : Mex) : Nat :=
  (m.dir.foldl (fun acc kv =>
    if acc.1 = some (kv.1 / 1024) then (acc.1, acc.2.1 + 1, max acc.2.2 (acc.2.1 + 1))
    else (some (kv.1 / 1024), 1, max acc.2.2 1)) ((none : Option Nat), 0, 0)).2.2

/-- MEX (Table 7-10). -/
def State.mexView (s : State) (off : Nat) : Option Nat :=
  if off = 0x040 then some s.mex.dir.length
  else if off = 0x058 then
    some (s.mex.rules.length + 65536 * s.mex.changes.length + 2 ^ 24 * bit (s.mex.changes != []))
  else if off = 0x05C then some s.shiftPosition
  else if off = 0x064 then some (match s.mex.spared with | some g => g + 64 | none => 0)
  else if off = 0x06C then some s.mex.bankMax
  else none

/-- TIER (Table 8-6). -/
def State.tierView (s : State) (off : Nat) : Option Nat :=
  if off = 0x044 then some (s.flash.st + 4 * bit s.flash.full)
  else if off = 0x04C then some s.lendable'
  else if off = 0x050 then some (s.tier.grantsOut.foldl (fun n kv => n + kv.2.mib) 0)
  else if off = 0x054 then some (s.tier.grantsIn.foldl (fun n g => n + g.mib) 0)
  else if off = 0x058 then some (Map.count s.pages fun p => p.state == .migrating)
  else none

/-- Reserve blocks left in a target (R227). -/
def Flash.reserveLeft (f : Flash) (t : Nat) : Nat := f.reserve - Map.getD f.reserveUsed t 0

/-- The targets of the board: channel × 8 + chip enable (Table 9-8). -/
def Flash.targets (f : Flash) : List Nat := (List.range 128).filter fun t => t % 8 < f.ces

/-- The target with the fewest reserve blocks left, the lowest of several. -/
def Flash.leastReserve (f : Flash) : Nat :=
  match f.targets with
  | [] => 0
  | t :: ts => ts.foldl (fun b x => if f.reserveLeft x < f.reserveLeft b then x else b) t

/-- FLM (Table 9-8). -/
def State.flmView (s : State) (off : Nat) : Option Nat :=
  let f := s.flash
  if off = 0x040 then some (f.st + 4 * bit f.formatted + 8 * bit f.mounting + 16 * bit f.formatting)
  else if off = 0x044 then
    some (f.ces + 16 * (f.luns - 1) + 64 * (f.planes - 1) + 256 * f.cell + 65536 * f.blocksPerLun)
  else if off = 0x048 then some f.pagesPerBlock
  else if off = 0x04C then some (if f.formatted then f.capacity else 0)
  else if off = 0x050 then some (if f.formatted then f.freeUnits else 0)
  else if off = 0x058 then some (withBits (s.reg pgFlm 0x058) 8 1 (bit f.formatting))
  else if off = 0x060 then
    let x := f.eraseSpan (fun _ => true) (16 * f.ces * f.targetBlocks)
    some (min 0xFFFF x.1 + 65536 * min 0xFFFF x.2)
  else if off = 0x068 then some (f.reserveLeft f.leastReserve + 65536 * f.leastReserve)
  else if off = 0x078 then some f.segSram.length
  else if off = 0x07C then some f.segHbm.length
  else if off = 0x080 then some f.segDirty.length
  else none

/-- PROF (Table 4-11). -/
def State.profView (s : State) (off win : Nat) : Option Nat :=
  let sl := Map.find? s.prof.slots win
  let dig (f : ProfSlot → Bytes) (base : Nat) : Nat := match sl with | some x => leAt (f x) (off - base) 4 | none => 0
  if off = 0x040 then some s.prof.storeGib
  else if off = 0x044 then
    some (s.prof.slots.length + 256 * bit s.prof.loading.isSome
      + 65536 * (if s.prof.loading.isSome then Config.loadPercent s.time % 101 else 0))
  else if off = 0x048 then some s.profFree
  else if off = 0x064 then some (match sl with | some x => x.id + 65536 * x.ver | none => 0)
  else if off = 0x068 then some (match sl with | some x => x.st + 4 * bit x.manifest | none => 0)
  else if off = 0x06C then some (match sl with
    | some x => min 0xFFFFFFFF (Map.count s.convs fun c => c.profile == x.id)
    | none => 0)
  else if off = 0x070 then some (match sl with
    | some x => x.mib + 65536 * Map.count s.pods fun p => p.cache.any fun e => e.id == x.id && e.ver == x.ver
    | none => 0)
  else if off = 0x074 then some (match sl with
    | some x => s.boundTo x.id x.ver
    | none => 0)
  else if 0x080 ≤ off ∧ off < 0x0A0 then some (dig ProfSlot.wdig 0x080)
  else if 0x0A0 ≤ off ∧ off < 0x0C0 then some (dig ProfSlot.pdig 0x0A0)
  else if 0x0C0 ≤ off ∧ off < 0x0E0 then some (dig ProfSlot.qdig 0x0C0)
  else none

/-- Regions in service. -/
def State.inService (s : State) : List Nat := (List.range 16).filter fun r => !(s.region r).retired

/-- A sum over the pods of the regions in service. -/
def State.podSum (s : State) (f : Pod → Nat) : Nat :=
  s.inService.foldl (fun n r => (List.range 28).foldl (fun m p => m + f (s.pod r p)) n) 0

/-- RES (Table 14-7). -/
def State.resView (s : State) (off : Nat) : Option Nat :=
  if off = 0x040 then
    some (s.podSum (fun p => if p.st = 2 then 0 else (p.lanesIn 1).length) + 1024 * s.podSum (fun p => bit (p.st == 1))
      + 65536 * (s.inService.filter fun r => (s.region r).aesSpare).length + 2 ^ 21 * bit s.res.keeperSpare
      + 2 ^ 22 * bit s.mex.spared.isNone)
  else if off = 0x044 then
    some (s.podSum (fun p => bit (p.st == 0)) + 65536 * s.inService.foldl (fun n r => n + 2 ^ r) 0)
  else if off = 0x048 then some (s.podSum fun p => if p.st = 0 then (p.lanesIn 0).length else 0)
  else if off = 0x068 then some (s.res.suspects.length + 16 * bit (s.res.selfListed != []))
  else if 0x06C ≤ off ∧ off < 0x07C then
    let k := (off - 0x06C) / 2
    some (s.res.suspects.getD k 0 + 65536 * s.res.suspects.getD (k + 1) 0)
  else if off = 0x07C then
    some (Map.count s.streams fun x => x.retained && x.mstate != 2)
  else none

/-- CMP (Table 15-6). -/
def State.cmpView (s : State) (off : Nat) : Option Nat := if off = 0x04C then some s.cmp.stubs.length else none

/-- POD (Table 18-7). -/
def State.podView (s : State) (region pod off win : Nat) : Option Nat :=
  let p := s.pod region pod
  if off = 0x040 then some ((p.lanesIn 0).length + 256 * (p.lanesIn 1).length + 65536 * (p.lanesIn 2).length)
  else if off = 0x048 then
    some (if win < 66 then (p.lane win).st + 256 * bit (s.within24 (p.lane win).faultAt) else 0)
  else if off = 0x04C then some (match s.podOwner region pod with | some x => x + 256 | none => 0)
  else if off = 0x050 then
    some (2 ^ p.cache.length - 1
      + 16 * (List.range p.cache.length).foldl (fun n e => match p.cache[e]? with
          | some x => if s.pinned p x then n + 2 ^ e else n
          | none => n) 0)
  else if 0x054 ≤ off ∧ off < 0x064 then some (match p.cache[(off - 0x054) / 4]? with
    | some x => x.id + 65536 * x.ver
    | none => 0)
  else if off = 0x064 then some p.queued
  else none

/-- REGN (Table 18-8). -/
def State.regnView (s : State) (region off win : Nat) : Option Nat :=
  let g := s.region region
  let v := Map.find? g.rsv win
  if off = 0x04C then
    some (s.field (pgRegn region) 0x04C 0 8 + 65536 * (512 - g.reservedGather - s.gathered region 256))
  else if off = 0x054 then some (match v with | some x => x.pods | none => 0)
  else if off = 0x058 then some (match v with | some x => x.first + 65536 * x.count | none => 0)
  else if off = 0x05C then some (match v with | some x => x.gather | none => 0)
  else if off = 0x070 then some (mibOf (s.poolFree region))
  else if off = 0x074 then some (s.sketchUsed region)
  else if off = 0x07C then some (g.aesActive + 2 * bit g.aesSpare)
  else none

/-- HBM (Table 18-12). -/
def State.hbmView (s : State) (stack off : Nat) : Option Nat :=
  let in_ (r : Nat) : Bool := !(s.region r).retired
  if off = 0x040 then some (bit (in_ (2 * stack) || in_ (2 * stack + 1)) + 2 * bit (in_ (2 * stack)) + 4 * bit (in_ (2 * stack + 1)))
  else if off = 0x044 then some (mibOf (reserveBlocks - s.reserveUsed stack))
  else if off = 0x048 then
    some (withBits (s.reg (pgHbm stack) 0x048) 0 16 (s.res.remapped.filter fun r => rowStack r == stack).length)
  else none

/-- What a register beyond the header shows from other state; none where its contents stand in the file. -/
def State.view (s : State) (master page off win : Nat) : Option Nat :=
  match blockOf page with
  | some .glb => s.glbView off win
  | some .int => s.intView off
  | some .log => s.logView master off
  | some .acc => s.accView master off
  | some .clk => s.clkView off
  | some .rst => s.rstView off
  | some .pwr => s.pwrView off win
  | some .sec => s.secView master off win
  | some .hq => s.hqView page off win
  | some .pft => s.pftView off win
  | some .eth => s.ethView (page - 0x021) off
  | some .tc => s.tcView off win
  | some .mex => s.mexView off
  | some .tier => s.tierView off
  | some .flm => s.flmView off
  | some .prof => s.profView off win
  | some .res => s.resView off
  | some .cmp => s.cmpView off
  | some .pod => s.podView ((page - 0x100) / 28) ((page - 0x100) % 28) off win
  | some .regn => s.regnView (page - 0x300) off win
  | some .die => none
  | some .hbm => s.hbmView (page - 0x320) off
  | none => none

/-! ## The header (R407 to R409, Table 18-2) -/

/-- Type code, instance and count of a page (Table 18-1). -/
def State.pageId (s : State) (page : Nat) : Nat × Nat × Nat :=
  match blockOf page with
  | some .glb => (0x0001, 0, 256)
  | some .int => (0x0002, 0, 808)
  | some .log => (0x0003, 0, 0)
  | some .acc => (0x0004, 0, 1280)
  | some .clk => (0x0005, 0, 9)
  | some .rst => (0x0006, 0, 24)
  | some .pwr => (0x0007, 0, 8)
  | some .sec => (0x0008, 0, 256)
  | some .hq => (0x0010, page - 0x010, 512)
  | some .pft => (0x0020, 0, 4096)
  | some .eth => (0x0021, page - 0x021, if page - 0x021 < s.pft.ports then lanesIn (s.modeLanes (page - 0x021)) else 0)
  | some .tc => (0x0030, 0, 8)
  | some .mex => (0x0040, 0, 16384)
  | some .tier => (0x0050, 0, 0)
  | some .flm => (0x0060, 0, 16)
  | some .prof => (0x0070, 0, 64)
  | some .res => (0x0080, 0, 0)
  | some .cmp => (0x0090, 0, 17)
  | some .pod => (0x0100, (page - 0x100) / 28 * 256 + (page - 0x100) % 28, 66)
  | some .regn => (0x0300, page - 0x300, 28)
  | some .die => (0x0310, page - 0x310, 4)
  | some .hbm => (0x0320, page - 0x320, 32)
  | none => (0, 0, 0)

/-- Pages that accept PG_FORCE (Table 18-3). -/
def forceable (page : Nat) : Bool :=
  match blockOf page with
  | some .pod => true | some .regn => true | some .die => true | some .hbm => true | some .flm => true
  | some .sec => true | some .mex => true | some .pft => true
  | _ => false

/-- Pages that hold RWL fields other than PG_LOCK (Table 18-2). -/
def lockable (page : Nat) : Bool :=
  match blockOf page with
  | some .glb => true | some .hq => true | some .pft => true | some .eth => true | some .mex => true
  | some .prof => true | some .cmp => true | some .pwr => true
  | _ => false

/-- Pages with 64-bit usage counters. -/
def counts64 (page : Nat) : Bool :=
  match blockOf page with
  | some .mex => true | some .tier => true | some .flm => true | some .pft => true | some .eth => true
  | some .hq => true | some .res => true | some .cmp => true | some .pod => true | some .regn => true
  | some .die => true | some .hbm => true | some .pwr => true
  | _ => false

/-- READY (R409): the page's block has passed boot step 10, its domain is not in reset, and an ETH page has a port. In recovery the
pages that are offered are ready. -/
def State.pageReady (s : State) (page : Nat) : Bool :=
  (s.phase == .ready || s.phase == .recovery)
    && (match pageDomain page with | some d => !s.boot.resetting.contains d | none => true)
    && (if 0x021 ≤ page ∧ page < 0x029 then decide (page - 0x021 < s.pft.ports) else true)

/-- PG_STAT.STATE: 0 active, 1 spare, 2 retired, 3 not present. -/
def State.pageState (s : State) (page : Nat) : Nat :=
  match blockOf page with
  | some .pod =>
    let r := (page - 0x100) / 28
    if (s.region r).retired then 2 else (s.pod r ((page - 0x100) % 28)).st
  | some .regn => if (s.region (page - 0x300)).retired then 2 else 0
  | some .die => if bitOf (s.reg page 0x044) 0 then 0 else 2
  | some .hbm => if (s.region (2 * (page - 0x320))).retired ∧ (s.region (2 * (page - 0x320) + 1)).retired then 2 else 0
  | some .eth => if page - 0x021 < s.pft.ports then 0 else 3
  | _ => 0

/-- PG_STAT.HEALTH, of the faults the state shows (log entry 37). -/
def State.pageHealth (s : State) (page : Nat) : Nat :=
  if s.pageState page = 2 then 3
  else match blockOf page with
    | some .pod =>
      let p := s.pod ((page - 0x100) / 28) ((page - 0x100) % 28)
      bit (s.within24 p.podFaultAt || s.within24 p.unitFaultAt || p.lanes.any fun kv => s.within24 kv.2.faultAt)
    | some .hbm =>
      let k := page - 0x320
      if (s.region (2 * k)).retired ∨ (s.region (2 * k + 1)).retired then 2
      else bit (s.res.rowErrors.any fun kv => rowStack kv.1 == k && kv.2.any fun t => s.within24 (some t))
    | some .eth => if Map.has s.pft.degraded (page - 0x021) then 2 else 0
    | some .mex => bit (s.mex.parity.any fun kv => kv.2.any fun t => s.within24 (some t))
    | _ => 0

/-- PG_STAT[31:16]: on POD pages the numbers of the two spare lanes (R421), 0 elsewhere. -/
def State.pageBlock (s : State) (page : Nat) : Nat :=
  match blockOf page with
  | some .pod =>
    let l := (s.pod ((page - 0x100) / 28) ((page - 0x100) % 28)).lanesIn 1
    l.getD 0 0x7F + 128 * l.getD 1 0x7F
  | _ => 0

/-- The header's registers that read as usual whatever READY holds (R409). -/
def State.header (s : State) (page off : Nat) : Nat :=
  let id := s.pageId page
  if off = 0x000 then id.2.1 + 65536 * id.1
  else if off = 0x004 then bit s.fuses.stepA1 + 256
  else if off = 0x008 then bit (forceable page) + 2 * bit (lockable page) + 4 * bit (counts64 page) + 65536 * id.2.2
  else
    bit (s.pageReady page) + 2 * s.pageState page + 8 * s.pageHealth page + 32 * s.field page 0x00C 5 1
      + 64 * s.field page 0x01C 0 1 + 65536 * s.pageBlock page

/-! ## Reads -/

/-- Pages that BAR0 gives: in recovery only GLB, RST and LOG (R377). -/
def State.offered (s : State) (page : Nat) : Bool :=
  if s.phase = .recovery then page == pgGlb || page == pgRst || page == pgLog else (blockOf page).isSome

/-- The page whose register a master reaches: the event-queue registers of an HQ page always are those of the issuing function's own
port (R300). -/
def ownPage (master page off : Nat) : Nat :=
  if 0x010 ≤ page ∧ page < 0x020 ∧ 0x080 ≤ off ∧ off < 0x098 ∧ isHost master then pgHq (masterPort master) 0 else page

/-- What a ready page's register at an offset holds, as a master sees it. -/
def State.registerNow (s : State) (master page0 off : Nat) : Nat :=
  let page := ownPage master page0 off
  let win := s.winOf master page off
  match regAt page off with
  | none => 0
  | some r =>
    if perMaster page off then s.ownSel master page off % 2 ^ 32
    else if (hiOf page off).isSome then s.pair page off win % 2 ^ 32
    else match loOf page off with
      | some lo => s.hiRead master page lo (s.winOf master page lo) % 2 ^ 32
      | none =>
        match s.view master page off win with
        | some v => v % 2 ^ 32
        | none => s.reg page off win &&& RegTable.maskOf r [.ro, .rw, .rwl, .w1c, .w1s]

/-- What a register read returns (R279, R406, R409): zeros on a reserved page, without READ on the page, and beyond the first four
registers of a page that is not ready. -/
def State.readReg (s : State) (master page off : Nat) : Nat :=
  if !s.offered page then 0
  else if s.right master page < 1 then 0
  else if off < 0x010 then s.header page off
  else if !s.pageReady page then 0
  else s.registerNow master page off

/-- A read of a LO register latches its high half for the reading master (R330, R415, R416). -/
def latchHi (master page off : Nat) (s : State) : State :=
  if s.offered page ∧ 1 ≤ s.right master page ∧ s.pageReady page ∧ (hiOf page off).isSome then
    let win := s.winOf master page off
    { s with latch := Map.insert s.latch (latchKey master page off win) (BitVec.ofNat 32 (s.pair page off win / 2 ^ 32)) }
  else s

/-- A register read of the dword at a BAR0 offset (R413: partial byte enables read the whole dword). Before boot step 10, and once
the node has stopped, nothing answers. -/
def readAccess (master addr : Nat) (s : State) : State :=
  let page := addr / 0x1000
  let off := addr % 0x1000 / 4 * 4
  if s.phase = .ready ∨ s.phase = .recovery then
    crossRegister page true ((latchHi master page off s).send (.readData master addr (BitVec.ofNat 32 (s.readReg master page off))))
  else s

/-- COUNTER_LO_READ. -/
def execCounterLoRead (master addr : Nat) (s : State) : Host.Outcome State Fault Refusal := ok (readAccess master addr s)

end Sys2Proof.Machine
end

