-- ==== Sys2Proof/Machine/Peers.lean ====
section
/-! DEFINITION. Beacons between nodes (R354, Table 14-6) and the silence of a peer. -/
namespace Sys2Proof.Machine

/-- Whether a level's spares are exhausted: no spare lane in a pod that is not retired, no spare pod or AES engine in a region, no
spare Keeper pair, or no spare bank group (R343, Table 14-2). -/
def State.sparesOut (s : State) : Bool :=
  !s.res.keeperSpare || s.mex.spared.isSome
    || s.inService.any fun r =>
      !(s.region r).aesSpare || (List.range 28).all (fun p => (s.pod r p).st != 1)
        || (List.range 28).any fun p => (s.pod r p).st != 2 && ((s.pod r p).lanesIn 1).isEmpty

/-- The epoch in force: that of the one VALID composition slot, 0 with none. -/
def State.epochInForce (s : State) : Nat :=
  match ((List.range 16).filter fun k => s.field pgCmp 0x05C 0 1 k = 1).map fun k => s.reg pgCmp 0x058 k with
  | [] => 0
  | [e] => e
  | l => Config.beaconEpoch l

/-- Bytes 16 to 39 of a BEACON's header (Table 14-6). -/
def State.beaconRest (s : State) : Bytes :=
  toBE 2 (s.field pgPft 0x064 16 16)
    ++ [BitVec.ofNat 8 (s.field pgCmp 0x040 0 2 + 4 * s.flash.st + 16 * bit s.sparesOut), BitVec.ofNat 8 (s.field pgClk 0x040 0 5)]
    ++ toBE 4 s.boot.count ++ toBE 8 s.time ++ toBE 4 s.epochInForce ++ toBE 2 (s.podSum fun p => bit (p.st == 0))
    ++ [BitVec.ofNat 8 (min 8 s.res.suspects.length), 0]

/-- The payload of a BEACON (Table 14-6). -/
def State.beaconPayload (s : State) : Bytes :=
  ((List.range 8).flatMap fun k => toBE 2 (s.res.suspects.getD k 0))
    ++ toBE 4 (s.inService.foldl (fun n r => n + mibOf (s.poolFree r)) 0) ++ toBE 4 s.lendable' ++ zeros 8

/-- One BEACON on every OPEN Keeper connection. -/
def sendBeacons (s : State) : State :=
  let rest := s.beaconRest
  let body := s.beaconPayload
  (Map.filterKV s.pft.conns fun _ c => c.keeper && c.state == .opened).foldl
    (fun t kv => sendPacket kv.2.addr 6 0 0 (pftHeader 8 0 kv.2.peer kv.1 s.nodeId 0 0 0 rest) body t) s

/-- BEACON_SEND: PERIOD_MS has passed since the last Beacons (R354). -/
def beaconSend (s : State) : State :=
  if s.time < s.res.beaconAt + 1000000 * s.field pgRes 0x058 0 10 then s
  else sendBeacons { s with res := { s.res with beaconAt := s.time } }

/-- BEACON_SEND. -/
def execBeaconSend (s : State) : Host.Outcome State Fault Refusal := ok (whenReady beaconSend s)

/-- The reserved bytes of a BEACON's payload are zero (R240, Table 14-6). -/
def beaconOk (p : Packet) : Bool := zerosAt p.payload 24 8

/-- The nodes a BEACON lists as SUSPECT. -/
def beaconSuspects (p : Packet) : List Nat := (List.range (min 8 (byteAt p.hdr 38))).map fun k => beAt p.payload (2 * k) 2 % 4096

/-- A BEACON arrives: the peer's state is recorded, and SELF follows what the peer lists (R352). -/
def beaconArrives (p : Packet) (s : State) : State :=
  if !beaconOk p then s.bump pgPft 0x0CC
  else
    let h := p.hdr
    let node := pNode h
    let lists := (beaconSuspects p).contains s.nodeId
    let x : Peer := { fd := beAt h 16 2, role := byteAt h 18 % 4, nand := byteAt h 18 / 4 % 4, last := s.time, silent := false,
                      listsMe := lists, boot := beAt h 20 4, epoch := beAt h 32 4 }
    let others := s.res.selfListed.filter (· != node)
    { s with res := { s.res with peers := Map.insert s.res.peers node x, selfListed := if lists then others ++ [node] else others } }

/-- BEACON. -/
def execBeacon (p : Packet) (s : State) : Host.Outcome State Fault Refusal := ok (whenReady (onPacket p 8 (beaconArrives p)) s)

/-- PEER_SILENT: LOSS periods have passed since the peer's last Beacon. -/
def peerSilent (node : Nat) (s : State) : State :=
  match Map.find? s.res.peers node with
  | none => s
  | some x =>
    let cfg := s.reg pgRes 0x058
    if x.silent ∨ s.time < x.last + bitsOf cfg 0 10 * bitsOf cfg 10 4 * 1000000 then s
    else
      let s1 : State := { s with res := { s.res with peers := Map.insert s.res.peers node { x with silent := true } } }
      raise (event 3 8 0x0803 pgRes) s1

/-- PEER_SILENT. -/
def execPeerSilent (node : Nat) (s : State) : Host.Outcome State Fault Refusal := ok (whenReady (peerSilent node) s)

end Sys2Proof.Machine
end

