-- ==== Sys2Proof/Machine/RegWrite.lean ====
section
/-! DEFINITION. Register writes (R279, R296, R300, R323, R360, R369 to R371, R406 to R423 and the register tables of each
chapter): who may write, which values are taken, what is logged, and what a write sets off. -/
namespace Sys2Proof.Machine

/-! ## Values -/

/-- 32-bit error and event counters: a write of zero clears, other writes are ignored (R369). -/
def isCounter (page off : Nat) : Bool :=
  match blockOf page with
  | some .glb => off == 0x090 || off == 0x094 || off == 0x098
  | some .int => off == 0x050
  | some .log => off == 0x070
  | some .acc => off == 0x070
  | some .clk => off == 0x050 || off == 0x054
  | some .rst => off == 0x05C
  | some .pwr => off == 0x064 || off == 0x068
  | some .sec => off == 0x05C || off == 0x060
  | some .hq => off == 0x0C0 || off == 0x0C4 || off == 0x0C8
  | some .pft => decide (0x0C0 ≤ off ∧ off ≤ 0x0E0)
  | some .eth => decide (0x080 ≤ off ∧ off ≤ 0x094)
  | some .tc => off == 0x0A0
  | some .mex => off == 0x044 || off == 0x048 || off == 0x04C || off == 0x068
  | some .tier => decide (0x080 ≤ off ∧ off ≤ 0x090)
  | some .flm => decide (0x0A8 ≤ off ∧ off ≤ 0x0B8)
  | some .prof => off == 0x050
  | some .res => decide (0x080 ≤ off ∧ off ≤ 0x0A0)
  | some .cmp => decide (0x088 ≤ off ∧ off ≤ 0x094)
  | some .pod => off == 0x068 || off == 0x06C
  | some .regn => off == 0x078
  | some .die => off == 0x050 || off == 0x054 || off == 0x058
  | some .hbm => decide (0x050 ≤ off ∧ off ≤ 0x05C)
  | none => false

/-- A value between two bounds. -/
def between (lo x hi : Nat) : Bool := decide (lo ≤ x ∧ x ≤ hi)

/-- The indices of a margin kind (Table 14-5). -/
def marginIndices (kind : Nat) : Nat := if kind = 0 then 16 else if kind ≤ 2 then 256 else 8

/-- Whether a selector may hold a value. -/
def selOk (page off v : Nat) : Bool :=
  match blockOf page with
  | some .acc => off != 0x040 || decide (v ≤ 0x4FF)
  | some .tc => off != 0x064 || decide (v ≤ 256)
  | some .cmp => decide (v ≤ 16)
  | some .pod => decide (v ≤ 65)
  | some .res => decide (bitsOf v 0 3 ≤ 4 ∧ bitsOf v 8 8 < marginIndices (bitsOf v 0 3))
  | _ => true

/-- Slots of a region's frame that are held, and the end of the last of them (R403). -/
def Region.held (r : Region) : Nat × Nat :=
  r.rsv.foldl (fun a kv => if kv.2.count = 0 then a else (a.1 + kv.2.count, max a.2 (kv.2.first + kv.2.count))) (0, 0)

/-- Whether a register may hold a value: each field within its stated range. A value outside it is ignored. -/
def State.inRange (s : State) (page off win v : Nat) : Bool :=
  let f (lo w : Nat) : Nat := bitsOf v lo w
  match blockOf page with
  | some .glb => off != 0x068 || f 2 2 != 3
  | some .mex => off != 0x060 || actionOk v
  | some .hq =>
    if off = 0x048 then between 10 (f 0 10) 1000 && between 1 (f 10 4) 15
    else if off = 0x058 then decide (f 16 13 ≤ 4096)
    else if off = 0x074 then between 4 (f 0 5) 16 && between 4 (f 8 5) 16
    else if off = 0x07C then between 1 (f 0 8) 255
    else if off = 0x090 then between 4 (f 0 4) 12
    else if off = 0x0AC then between 4 (f 0 5) 16
    else true
  | some .pft =>
    if off = 0x040 then f 0 2 != 3 && between 1 (f 4 5) 16
    else if off = 0x048 then between 8 (f 0 9) 500 && between 1 (f 16 4) 15
    else if off = 0x04C then between 64 v 2048
    else if off = 0x050 then between 1 (f 0 5) 31 && between 1 (f 8 8) 255
    else true
  | some .tc =>
    if off = 0x060 ∨ off = 0x070 then between 1 v 65535
    else if off = 0x078 then between 1 v 65535 && decide (win < 256)
    else if off = 0x074 then decide (win < 256)
    else if off = 0x068 then between 1 v 255
    else if off = 0x080 then between 0 (f 0 9) 256
    else if off = 0x090 ∨ off = 0x094 then (s.gate (win / 256)).pend.isNone
    else true
  | some .tier =>
    if off = 0x040 then between 1 (f 0 7) 50 && between 2 (f 8 7) 100 && decide (f 0 7 < f 8 7)
    else if off = 0x048 then between 1 v 1000
    else true
  | some .flm =>
    if off = 0x054 then between 7 v 28
    else if off = 0x05C then between 50 v 2000
    else if off = 0x064 then decide (f 0 8 < f 8 8) && between 1 (f 16 7) 100
    else if off = 0x06C then between 1 v 64
    else if off = 0x074 then between 0 v 16
    else true
  | some .res =>
    if off = 0x04C then between 1 (f 0 5) 24 && between 1 (f 8 3) 4
    else if off = 0x050 then between 0 (f 8 7) 100
    else if off = 0x054 then between 10 (f 0 7) 100 && between 64 (f 8 13) 4096
    else if off = 0x058 then between 1 (f 0 10) 1000 && between 2 (f 10 4) 15
    else true
  | some .cmp =>
    if off = 0x048 then between 0 v 1000
    else if off = 0x054 then decide (win < 16) && s.field pgCmp 0x05C 0 1 win == 0
    else if off = 0x058 then decide (win < 16) && (s.field pgCmp 0x05C 0 1 win == 0 || newer 32 v (s.reg pgCmp 0x058 win))
    else if off = 0x05C then decide (win < 16)
    else true
  | some .pwr => off != 0x054 || (between 85 (f 0 7) 105 && between 80 (f 8 7) 95)
  | some .regn =>
    if off = 0x040 then
      let h := (s.region (page - 0x300)).held
      between 16 (f 0 9) 256 && between 1 (f 16 7) 100 && decide (h.2 ≤ f 0 9 ∧ h.1 + f 0 9 / 8 ≤ f 0 9)
    else if off = 0x048 then between 1 v 255
    else true
  | some .die => off != 0x040 || (f 0 4 != 0 && f 8 4 != 0 && f 16 4 != 0)
  | _ => true

/-- A written value as the register takes it where the spec says that it reads back otherwise: GW above 200 as 200 (R84), a grace of
0 as 1 (Table 8-6), and the low bits of ring bases and of the shadow address as zero (Table 12-9). -/
def adjust (page off v : Nat) : Nat :=
  match blockOf page with
  | some .regn => if off = 0x04C then min v 200 else v
  | some .tier => if off = 0x048 ∧ v = 0 then 1 else v
  | some .hq =>
    if off = 0x064 ∨ off = 0x06C ∨ off = 0x080 ∨ off = 0x0A4 then v / 4096 * 4096
    else if off = 0x088 then v / 4 * 4
    else v
  | _ => v

/-- PG_LOCK of a page (R410). -/
def State.locked? (s : State) (page : Nat) : Bool := s.field page 0x01C 0 1 == 1

/-- The writable bits of a register now: its RW fields, and its RWL fields while the page is not locked. -/
def State.writable (s : State) (page off : Nat) : Nat :=
  match regAt page off with
  | some r => RegTable.maskOf r (if s.locked? page then [.rw] else [.rw, .rwl])
  | none => 0

/-- What a register becomes when a value is written: its writable bits from the value, the others as they were. -/
def State.taken (s : State) (page off win value : Nat) : Nat :=
  let m := s.writable page off
  let old := s.reg page off win
  (old &&& (0xFFFFFFFF ^^^ m)) ||| (adjust page off (value &&& m))

/-! ## Effects -/

/-- PG_OWNER names the master of the last write that changed the page (Table 18-2). -/
def owned (master page : Nat) (s : State) : State := s.setReg page 0x024 master

/-- Stores a value that is not logged (R323). -/
def quietSet (master page off win v : Nat) (s : State) : State :=
  if s.reg page off win = v then s else owned master page (s.setReg page off v win)

/-- A queue or SRQ configuration is refused on an HQ page. -/
def refuseCfg (page : Nat) (s : State) : State := setCause page 4 s

/-- Stores a value and logs the change (R323). -/
def commitReg (master page off win sel v : Nat) (s : State) : State :=
  let old := s.reg page off win
  if old = v then s else regRecord master page off old v sel (s.setReg page off v win)

/-- What a changed register sets off beyond its new value. -/
def regEffect (page off win old new : Nat) (s : State) : State :=
  match blockOf page with
  | some .int => if off = 0x040 then evalInt s else s
  | some .eth => if off = 0x044 then portEnable (page - 0x021) (bitOf old 0) (bitOf new 0) s else s
  | some .cmp =>
    if off = 0x05C then
      if bitOf new 0 ∧ !bitOf old 0 then openSlot win s else if bitOf old 0 ∧ !bitOf new 0 then clearSlot win s else s
    else s
  | _ => s

/-- What is brought up to date before a register changes: the token buckets whose rate or depth it holds. -/
def beforeWrite (page off win : Nat) (s : State) : State := if page = pgTc then settleTokens off win s else s

/-- A write to a register with no behaviour of its own: a value in range is stored, logged when it changes, and takes effect. -/
def plainWrite (master page off value : Nat) (s : State) : State :=
  let win := s.winOf master page off
  let old := s.reg page off win
  let new := s.taken page off win value
  if new = old ∨ !s.inRange page off win new then s
  else regEffect page off win old new (commitReg master page off win win new (beforeWrite page off win s))

/-! ## HQ (R282, R292, R299, R300) -/

/-- Whether a master acts as PF0 of a port: that function, or the Keeper applying configuration records (R378). -/
def actsPf0 (master port : Nat) : Bool := master == port * 0x40 || master == 0x080

/-- A configuration register of an object with an ENABLE bit: refused while it is enabled, but for the write that clears ENABLE and leaves
the rest of the register as it was. -/
def configWrite (master page off win sel enOff enBit value : Nat) (refuse enable disable : State → State) (s : State) : State :=
  let old := s.reg page off win
  let new := s.taken page off win value
  if bitOf (s.reg page enOff win) enBit then
    if off = enOff ∧ new = withBits old enBit 1 0 then disable s else refuse s
  else if !s.inRange page off win new then refuse s
  else if off = enOff ∧ bitOf new enBit then enable (commitReg master page off win sel new s)
  else commitReg master page off win sel new s

/-- A queue pair's ENABLE is cleared: fetching stops, and the disable takes effect once its accepted commands have completed (R282). -/
def disableQueue (master page qp : Nat) (s : State) : State :=
  let port := hqPort page
  let q := s.queue port qp
  if q.disabling then s
  else
    let old := s.qCfg port qp
    let s1 := regRecord master page 0x074 old (withBits old 23 1 0) qp s
    settleDisable port qp (s1.setQueue port qp { q with disabling := true })

/-- A queue pair's registers. -/
def queueWrite (master page off value : Nat) (s : State) : State :=
  let port := hqPort page
  let qp := s.qSel master page
  if !((isHost master && masterPort master == port && s.ownsQueue port (masterFn master) qp) || master == 0x080) then refuseCfg page s
  else
    configWrite master page off qp qp 0x074 23 value (refuseCfg page) (fun t => t.setQueue port qp .empty)
      (disableQueue master page qp) s

/-- The issuing function's event-queue registers. -/
def eqWrite (master page off value : Nat) (s : State) : State :=
  let pg := ownPage master page off
  let port := hqPort pg
  let fn := masterFn master
  if !(isHost master || master == 0x080) then s
  else
    let old := s.reg pg 0x090 fn
    configWrite master pg off fn 0 0x090 16 value (refuseCfg page) (fun t => t.setEq port fn .empty)
      (commitReg master pg 0x090 fn 0 (withBits old 16 1 0)) s

/-- The selected partition's SRQ registers (R292): PF0 or a function mapped to the partition may configure it, and it is enabled on one
port at a time. -/
def srqWrite (master page off value : Nat) (s : State) : State :=
  let port := hqPort page
  let part := s.srqSel master page
  let fn := masterFn master
  let may := actsPf0 master port || (isHost master && masterPort master == port && s.fnPart port fn == some part)
  let elsewhere : Bool := match Map.find? s.srqs part with | some q => q.port != port | none => false
  let old := s.reg page 0x0AC part
  if !may ∨ (off = 0x0AC ∧ bitOf value 28 ∧ elsewhere) then refuseCfg page s
  else
    configWrite master page off part part 0x0AC 28 value (refuseCfg page)
      (fun t => { t with srqs := Map.insert t.srqs part ⟨port, fn, 0, 0, []⟩ })
      (fun t => commitReg master page 0x0AC part part (withBits old 28 1 0) { t with srqs := Map.erase t.srqs part }) s

/-- HQ registers. -/
def hqWrite (master page off value : Nat) (s : State) : State :=
  let port := hqPort page
  if off = 0x040 then (if bitOf value 2 then handoverPrimary master page s else s)
  else if off = 0x044 then beat port (quietSet master page 0x044 0 value s)
  else if off = 0x054 ∨ off = 0x058 then (if actsPf0 master port then plainWrite master page off value s else s)
  else if 0x064 ≤ off ∧ off < 0x080 then queueWrite master page off value s
  else if 0x080 ≤ off ∧ off < 0x098 then eqWrite master page off value s
  else if 0x0A4 ≤ off ∧ off < 0x0B0 then srqWrite master page off value s
  else plainWrite master page off value s

/-- Whether a master may select a value on an HQ page (R300). -/
def State.hqSelOk (s : State) (master page off v : Nat) : Bool :=
  let port := hqPort page
  if off = 0x050 then actsPf0 master port
  else if off = 0x060 then
    v / 512 == (page - 0x010) % 8
      && (master == 0x080 || (isHost master && masterPort master == port && s.ownsQueue port (masterFn master) v))
  else true

/-! ## Other pages -/

/-- A selector, or a register that each master holds for itself. -/
def selWrite (master page off value : Nat) (s : State) : State :=
  let v := value &&& s.writable page off
  if off = 0x090 ∧ page = pgPft then
    let s1 := if value % 4 = 1 then openConnection master s else if value % 4 = 2 then closeConnection master s else s
    if (value % 4 = 1 ∨ value % 4 = 2) ∧ bitsOf (s1.sel master pgPft 0x090) 16 8 = Status.ok.code then
      regRecord master pgPft 0x090 0 (value % 4) 0 s1
    else s1
  else if !selOk page off v ∨ ((0x010 ≤ page ∧ page < 0x020) ∧ !s.hqSelOk master page off v) then s
  else if page = pgPft ∧ (off = 0x088 ∨ off = 0x08C) then
    let old := s.sel master page off
    if old = v then s else regRecord master page off old v 0 (s.setSel master page off v)
  else if page = pgLog ∧ off = 0x050 then logSelect master (s.setSel master page off v)
  else s.setSel master page off v

/-- GLB: PART_MODE and PART_CMD (R417, R419). -/
def glbWrite (master off value : Nat) (s : State) : State :=
  if off = 0x068 then
    let part := s.selPart master
    match s.part? part with
    | none => s
    | some p =>
      let new := value &&& 0x1FF
      if p.state ≠ .active ∨ bitsOf new 2 2 = 3 ∨ new = p.mode then s
      else partMode part new (regRecord master pgGlb 0x068 p.mode new part s)
  else if off = 0x088 then partCommand master (value % 8) s
  else plainWrite master pgGlb off value s

/-- INT_ARM (R420). -/
def armWrite (master value : Nat) (s : State) : State :=
  if bitOf value 0 then evalInt (commitReg master pgInt 0x044 0 0 1 s) else s

/-- CLK_CORE.LOW_RESET sets LOW to STEP. -/
def lowReset (master value : Nat) (s : State) : State :=
  if bitOf value 16 then quietSet master pgClk 0x040 0 (withBits (s.reg pgClk 0x040) 8 5 (s.field pgClk 0x040 0 5)) s else s

/-- RST (R389, R390, R394): the serial-memory window's staging registers need ADMIN (R381). -/
def rstWrite (master off value : Nat) (s : State) : State :=
  if off = 0x048 then quiesceWrite master false value s
  else if off = 0x04C then quiesceWrite master true value s
  else if off = 0x054 then rstPulse master value s
  else if off = 0x064 then smCommand master (value % 4) s
  else if off = 0x060 ∨ 0x100 ≤ off then
    if s.right master pgRst < 3 then deny master pgRst s
    else quietSet master pgRst off 0 (value &&& s.writable pgRst off) s
  else plainWrite master pgRst off value s

/-- A write of LOG_MARK_HI is logged as any register's where it changes its value (Table 13-8), and appends the MARK record (R327). -/
def markWrite (master value : Nat) (s : State) : State := logMark master (commitReg master pgLog 0x06C 0 0 value s)

/-- FLM_CMD (R230, R231): a command that is taken is logged. -/
def flmWrite (master value : Nat) (s : State) : State :=
  let op := value % 8
  let s1 := flmCommand master op s
  let taken : Bool := (op == 1 && s1.flash.formatting && !s.flash.formatting)
    || (op == 2 && s1.field pgFlm 0x058 16 8 == Status.ok.code)
  if taken then regRecord master pgFlm 0x058 0 op 0 s1 else s1

/-- TC_GATE_CTRL (R271): LEN is stored but while a commit is pending, and COMMIT commits the pending list. -/
def gateWrite (master value : Nat) (s : State) : State :=
  let port := s.winOf master pgTc 0x080
  let old := s.reg pgTc 0x080 port
  let new := if (s.gate port).pend.isSome then old else s.taken pgTc 0x080 port value
  let go := bitOf value 16
  if !s.inRange pgTc 0x080 port new ∨ (new = old ∧ !go) then s
  else
    let s1 := regRecord master pgTc 0x080 old (new + (if go then 65536 else 0)) port (s.setReg pgTc 0x080 new port)
    if go then gateCommit port (bitsOf new 0 9) s1 else s1

/-- The registers of a block beyond the header. -/
def bodyWrite (master page off value : Nat) (s : State) : State :=
  match blockOf page with
  | some .glb => glbWrite master off value s
  | some .int => if off = 0x044 then armWrite master value s else plainWrite master page off value s
  | some .log => if off = 0x06C then markWrite master value s else plainWrite master page off value s
  | some .acc => if off = 0x048 then setRights master value s else plainWrite master page off value s
  | some .clk => if off = 0x040 then lowReset master value s else plainWrite master page off value s
  | some .rst => rstWrite master off value s
  | some .pwr => if off = 0x040 then setProfile master (value % 4) s else plainWrite master page off value s
  | some .sec =>
    if off = 0x044 then mailControl master value s
    else if 0x800 ≤ off then mailData master off value s
    else plainWrite master page off value s
  | some .hq => hqWrite master page off value s
  | some .tc => if off = 0x080 then gateWrite master value s else plainWrite master page off value s
  | some .flm => if off = 0x058 then flmWrite master value s else plainWrite master page off value s
  | some .regn => if off = 0x06C then rsvCommand master (page - 0x300) (value % 4) s else plainWrite master page off value s
  | _ => plainWrite master page off value s

/-- Writes W1C bits of PG_CAUSE (R412): not logged. -/
def clearCause (master page value : Nat) (s : State) : State :=
  quietSet master page 0x010 0 (s.reg page 0x010 &&& (0xFFFFFFFF ^^^ value)) s

/-- A write that has passed every check, to a register of a ready page. -/
def takeWrite (master page off value : Nat) (s : State) : State :=
  if off = 0x010 then clearCause master page value s
  else if off = 0x014 then evalInt (commitReg master page 0x014 0 0 value s)
  else if off = 0x018 then forcePage master page value s
  else if off = 0x01C then (if bitOf value 0 then commitReg master page 0x01C 0 0 1 s else s)
  else if perMaster page off then selWrite master page off value s
  else if isCounter page off then
    (if value = 0 then quietSet master page off (s.winOf master page off) 0 s else s)
  else bodyWrite master page off value s

/-! ## Who may write (R279, R296, R318, R409, R413) -/

/-- The writes that a function of the port that is not primary may make (R296). -/
def globalExempt (master page off : Nat) : Bool :=
  (decide (0x010 ≤ page ∧ page < 0x020) && hqPort page == masterPort master) || perMaster page off
    || (page == pgSec && (off == 0x044 || decide (0x800 ≤ off)))

/-- The right that a write needs: ADMIN on ACC, else WRITE (R279, R318). -/
def writeNeeds (page : Nat) : Nat := if page = pgAcc then 3 else 2

/-- A register write of the dword at a BAR0 offset, with its byte enables. -/
def writeReg (master addr value be : Nat) (s : State) : State :=
  let page := addr / 0x1000
  let off := addr % 0x1000 / 4 * 4
  if s.phase ≠ .ready ∧ s.phase ≠ .recovery then s
  else if be ≠ 0xF then setCause pgGlb 2 (s.bump pgGlb 0x090)
  else if !s.offered page then s
  else if isHost master ∧ masterPort master ≠ s.primary ∧ !globalExempt master page off then
    s.bump (pgHq (masterPort master) 0) 0x0C8
  else if s.right master page < writeNeeds page then deny master page s
  else if !s.pageReady page then s.bump pgGlb 0x094
  else if (regAt page off).isNone then s
  else takeWrite master page off value (crossRegister page false s)

/-- A write to one register of a page. -/
def writeTo (master page off : Nat) (value : W32) (s : State) : State := writeReg master (page * 0x1000 + off) value.toNat 0xF s

/-! ## The rows of the table -/

/-- REGISTER_WRITE. -/
def execRegisterWrite (master addr : Nat) (value : W32) (be : Nat) (s : State) : Host.Outcome State Fault Refusal :=
  ok (writeReg master addr value.toNat be s)

/-- PG_FORCE. -/
def execPgForce (master page : Nat) (value : W32) (s : State) : Host.Outcome State Fault Refusal := ok (writeTo master page 0x018 value s)

/-- PG_LOCK. -/
def execPgLock (master page : Nat) (value : W32) (s : State) : Host.Outcome State Fault Refusal := ok (writeTo master page 0x01C value s)

/-- INT_ARM. -/
def execIntArm (master : Nat) (value : W32) (s : State) : Host.Outcome State Fault Refusal := ok (writeTo master pgInt 0x044 value s)

/-- INT_HOLDOFF_EXPIRY: HOLDOFF_US has passed, and a message that waited is sent if its condition still holds. -/
def execIntHoldoffExpiry (s : State) : Host.Outcome State Fault Refusal :=
  ok (whenUp (fun t => if t.msgPending then evalInt { t with msgPending := false } else t) s)

/-- ACC_RIGHT. -/
def execAccRight (master : Nat) (value : W32) (s : State) : Host.Outcome State Fault Refusal := ok (writeTo master pgAcc 0x048 value s)

/-- LOG_MARK: a write of LOG_MARK_HI. -/
def execLogMark (master : Nat) (value : W32) (s : State) : Host.Outcome State Fault Refusal := ok (writeTo master pgLog 0x06C value s)

/-- LOG_SEL: a write of LOG_SEL_LO. -/
def execLogSel (master : Nat) (value : W32) (s : State) : Host.Outcome State Fault Refusal := ok (writeTo master pgLog 0x050 value s)

/-- CLK_LOW_RESET. -/
def execClkLowReset (master : Nat) (value : W32) (s : State) : Host.Outcome State Fault Refusal := ok (writeTo master pgClk 0x040 value s)

/-- QUEUE_DISABLE: a write of HQ_Q_CFG. -/
def execQueueDisable (master page : Nat) (value : W32) (s : State) : Host.Outcome State Fault Refusal :=
  ok (writeTo master page 0x074 value s)

/-- HEARTBEAT: a write of HQ_HB. -/
def execHeartbeat (master page : Nat) (value : W32) (s : State) : Host.Outcome State Fault Refusal := ok (writeTo master page 0x044 value s)

/-- HANDOVER: a write of HQ_OWNER. -/
def execHandover (master page : Nat) (value : W32) (s : State) : Host.Outcome State Fault Refusal := ok (writeTo master page 0x040 value s)

/-- PART_CREATE. -/
def execPartCreate (master : Nat) (s : State) : Host.Outcome State Fault Refusal := ok (writeTo master pgGlb 0x088 1 s)

/-- PART_RESIZE. -/
def execPartResize (master : Nat) (s : State) : Host.Outcome State Fault Refusal := ok (writeTo master pgGlb 0x088 2 s)

/-- PART_DELETE. -/
def execPartDelete (master : Nat) (s : State) : Host.Outcome State Fault Refusal := ok (writeTo master pgGlb 0x088 3 s)

/-- PART_RESERVE. -/
def execPartReserve (master : Nat) (s : State) : Host.Outcome State Fault Refusal := ok (writeTo master pgGlb 0x088 4 s)

/-- PART_MODE_WRITE. -/
def execPartModeWrite (master : Nat) (value : W32) (s : State) : Host.Outcome State Fault Refusal := ok (writeTo master pgGlb 0x068 value s)

/-- RSV_SET. -/
def execRsvSet (master region : Nat) (s : State) : Host.Outcome State Fault Refusal := ok (writeTo master (pgRegn region) 0x06C 1 s)

/-- RSV_CLEAR. -/
def execRsvClear (master region : Nat) (s : State) : Host.Outcome State Fault Refusal := ok (writeTo master (pgRegn region) 0x06C 2 s)

/-- FORMAT. -/
def execFormat (master : Nat) (s : State) : Host.Outcome State Fault Refusal := ok (writeTo master pgFlm 0x058 1 s)

/-- FLASH_OFFLINE. -/
def execFlashOffline (master : Nat) (s : State) : Host.Outcome State Fault Refusal := ok (writeTo master pgFlm 0x058 2 s)

/-- PFT_OPEN_CONNECTION. -/
def execPftOpenConnection (master : Nat) (s : State) : Host.Outcome State Fault Refusal := ok (writeTo master pgPft 0x090 1 s)

/-- PFT_CLOSE_CONNECTION. -/
def execPftCloseConnection (master : Nat) (s : State) : Host.Outcome State Fault Refusal := ok (writeTo master pgPft 0x090 2 s)

/-- GATE_COMMIT: a write of TC_GATE_CTRL. -/
def execGateCommit (master : Nat) (value : W32) (s : State) : Host.Outcome State Fault Refusal := ok (writeTo master pgTc 0x080 value s)

/-- MBX_CLAIM: a write of SEC_MBX_CTRL. -/
def execMbxClaim (master : Nat) (value : W32) (s : State) : Host.Outcome State Fault Refusal := ok (writeTo master pgSec 0x044 value s)

/-- MBX_RELEASE: a write of SEC_MBX_CTRL. -/
def execMbxRelease (master : Nat) (value : W32) (s : State) : Host.Outcome State Fault Refusal := ok (writeTo master pgSec 0x044 value s)

/-- MBX_GO: a write of SEC_MBX_CTRL. -/
def execMbxGo (master : Nat) (value : W32) (s : State) : Host.Outcome State Fault Refusal := ok (writeTo master pgSec 0x044 value s)

/-- PWR_PROFILE. -/
def execPwrProfile (master : Nat) (value : W32) (s : State) : Host.Outcome State Fault Refusal := ok (writeTo master pgPwr 0x040 value s)

/-- CMP_EPOCH. -/
def execCmpEpoch (master : Nat) (value : W32) (s : State) : Host.Outcome State Fault Refusal := ok (writeTo master pgCmp 0x058 value s)

/-- CMP_MCTRL. -/
def execCmpMctrl (master : Nat) (value : W32) (s : State) : Host.Outcome State Fault Refusal := ok (writeTo master pgCmp 0x05C value s)

/-- QUIESCE_WRITE: a write of RST_QUIESCE_IN, or of RST_QUIESCE_OUT. -/
def execQuiesceWrite (master : Nat) (out : Bool) (value : W32) (s : State) : Host.Outcome State Fault Refusal :=
  ok (writeTo master pgRst (if out then 0x04C else 0x048) value s)

/-- RST_PULSE. -/
def execRstPulse (master : Nat) (value : W32) (s : State) : Host.Outcome State Fault Refusal := ok (writeTo master pgRst 0x054 value s)

/-- SM_ERASE. -/
def execSmErase (master : Nat) (s : State) : Host.Outcome State Fault Refusal := ok (writeTo master pgRst 0x064 1 s)

/-- SM_PROGRAM. -/
def execSmProgram (master : Nat) (s : State) : Host.Outcome State Fault Refusal := ok (writeTo master pgRst 0x064 2 s)

/-- SM_READ. -/
def execSmRead (master : Nat) (s : State) : Host.Outcome State Fault Refusal := ok (writeTo master pgRst 0x064 3 s)

/-- ETH_CTRL_ENABLE: a write of ETH_CTRL of a port. -/
def execEthCtrlEnable (master port : Nat) (value : W32) (s : State) : Host.Outcome State Fault Refusal :=
  ok (writeTo master (pgEth port) 0x044 value s)

end Sys2Proof.Machine
end

