-- ==== Sys2Proof/Machine/Boot.lean ====
section
/-! DEFINITION. Power-on (R372 to R384, R429): the choice of an image slot, the boot count, the last checkpoint, configuration
records, manifests, and what a node comes up with; and the loss and return of a PLL's lock (R388, R393). -/
namespace Sys2Proof.Machine

/-! ## Image slots (R374 to R377) -/

/-- Size and base of an image slot (Table 16-2). -/
def slotSize : Nat := 0x1C00000
def slotBase (slot : Nat) : Nat := slot * slotSize

/-- The 4 KiB boot header of a slot. -/
def bootHeader (m : Map Byte) (slot : Nat) : Bytes := smBytes m (slotBase slot) 4096

/-- Offset and length of a section: 0 firmware, 1 configuration, 2 manifests (Table 16-3). -/
def sectionOf (h : Bytes) (k : Nat) : Nat × Nat := (leAt h (16 + 40 * k) 4, leAt h (20 + 40 * k) 4)

/-- The digest a header gives a section. -/
def sectionDigest (h : Bytes) (k : Nat) : Bytes := slice h (24 + 40 * k) 32

/-- Whether two extents share a byte. -/
def overlaps (a b : Nat × Nat) : Bool := decide (0 < a.2 ∧ 0 < b.2 ∧ a.1 < b.1 + b.2 ∧ b.1 < a.1 + a.2)

/-- The key under which the signature must verify, or none where KEYSEL or OPKEY is not as the fuses require (R376). -/
def State.bootKey (s : State) (h : Bytes) : Option Bytes :=
  match s.fuses.opKey with
  | none => if byteAt h 12 = 0 then some Config.lernakKey else none
  | some d => if byteAt h 12 = 1 ∧ Sha256.hash (slice h 136 64) = d then some (slice h 136 64) else none

/-- Whether a header's fixed fields and reserved bytes are as Table 16-3 gives them and STEPS includes the part's stepping. -/
def State.headerForm (s : State) (h : Bytes) : Bool :=
  decide (leAt h 0 4 = 0x42585350 ∧ leAt h 4 2 = 1 ∧ leAt h 6 2 = 4096) && bitOf (byteAt h 13) (bit s.fuses.stepA1)
    && zerosAt h 14 2 && zerosAt h 200 3768 && zerosAt h 4032 64 && (byteAt h 12 == 1 || zerosAt h 136 64)

/-- Whether a header's sections lie within the slot, behind the header, and do not overlap. -/
def sectionsOk (h : Bytes) : Bool :=
  let a := sectionOf h 0
  let b := sectionOf h 1
  let c := sectionOf h 2
  let fits (x : Nat × Nat) : Bool := x.2 == 0 || decide (4096 ≤ x.1 ∧ x.1 + x.2 ≤ slotSize)
  fits a && fits b && fits c && !overlaps a b && !overlaps a c && !overlaps b c

/-- Whether a slot's header is valid (R376). -/
def State.headerValid (s : State) (slot : Nat) : Bool :=
  let h := bootHeader s.boot.smem slot
  s.headerForm h && sectionsOk h && (match s.bootKey h with
    | some k => P256.verify k (Sha256.hash (h.take 3968)) (slice h 3968 64)
    | none => false)

/-- A section's bytes. -/
def State.sectionBytes (s : State) (slot k : Nat) : Bytes :=
  let x := sectionOf (bootHeader s.boot.smem slot) k
  smBytes s.boot.smem (slotBase slot + x.1) x.2

/-- The manifests of a section (R379). -/
def manifestsOf (b : Bytes) : List Bytes := (List.range (b.length / 128)).map fun k => slice b (128 * k) 128

/-- No two manifests name one profile ID (R379). -/
def manifestsDiffer (l : List Bytes) : Bool := ((l.map fun m => leAt m 0 2).eraseDups.length) == l.length

/-- Whether the three sections of a slot pass their checks (R377, R379). A configuration section of length 0 is blank. -/
def State.slotPasses (s : State) (slot : Nat) : Bool :=
  let h := bootHeader s.boot.smem slot
  let good (k : Nat) : Bool := Sha256.hash (s.sectionBytes slot k) == sectionDigest h k
  good 0 && ((sectionOf h 1).2 == 0 || good 1) && ((sectionOf h 2).2 == 0 || good 2)
    && manifestsDiffer (manifestsOf (s.sectionBytes slot 2))

/-- IMAGE_SEQ of a slot's header. -/
def State.slotSeq (s : State) (slot : Nat) : Nat := leAt (bootHeader s.boot.smem slot) 8 4

/-- The slots with valid headers, the one with the newer IMAGE_SEQ first; `tie` decides where neither is newer. -/
def State.slotOrder (s : State) (tie : Nat) : List Nat :=
  match s.headerValid 0, s.headerValid 1 with
  | true, true =>
    if newer 32 (s.slotSeq 0) (s.slotSeq 1) then [0, 1] else if newer 32 (s.slotSeq 1) (s.slotSeq 0) then [1, 0]
    else if tie % 2 = 0 then [0, 1] else [1, 0]
  | true, false => [0]
  | false, true => [1]
  | false, false => []

/-- The slot that boots, and whether it is the second one tried (R377); none sends the node into recovery. -/
def State.chooseSlot (s : State) (tie : Nat) : Option (Nat × Bool) :=
  match s.slotOrder tie with
  | [] => none
  | a :: rest =>
    if s.slotPasses a then some (a, false)
    else match rest with
      | [] => none
      | b :: _ => if s.slotPasses b then some (b, true) else none

/-! ## The checkpoint and boot-count areas (R380) -/

/-- Indices of the records of an area that are not wholly erased, in rising order. -/
def usedSlots (m : Map Byte) (base size span : Nat) : List Nat :=
  ((m.filter fun c => decide (base ≤ c.1 ∧ c.1 < base + span)).map fun c => (c.1 - base) / size).eraseDups

/-- The newest of the numbered records of an area: its index and number. -/
def newestOf (n : Nat) (l : List (Nat × Nat)) : Option (Nat × Nat) :=
  l.foldl (fun acc x => match acc with
    | some y => if newer n x.2 y.2 then some x else some y
    | none => some x) none

/-- The newest valid boot count and its index. -/
def bootCountAt (m : Map Byte) : Option (Nat × Nat) :=
  newestOf 32 ((usedSlots m 0x3C00000 16 0x400000).filterMap fun k =>
    let b := smBytes m (0x3C00000 + 16 * k) 16
    if leAt b 0 4 + leAt b 4 4 = 0xFFFFFFFF then some (k, leAt b 0 4) else none)

/-- A boot-count record's 16 bytes. -/
def bootCountBytes (n : Nat) : Bytes := toLE 4 n ++ toLE 4 (0xFFFFFFFF - n % 2 ^ 32) ++ zeros 8

/-- The newest checkpoint with a correct CRC: its index and SEQ. -/
def checkpointAt (m : Map Byte) : Option (Nat × Nat) :=
  newestOf 64 ((usedSlots m 0x3800000 64 0x400000).filterMap fun k =>
    let b := smBytes m (0x3800000 + 64 * k) 64
    if leAt b 48 4 = crc32 (b.take 48) then some (k, leAt b 0 8) else none)

/-- Boot-count slots of the area. -/
def countSlots : Nat := 262144

/-- Step 6: the newest valid count plus one is written, or 1 where the area holds none. -/
def writeBootCount (s : State) : State :=
  let old := bootCountAt s.boot.smem
  let n := match old with | some x => (x.2 + 1) % 2 ^ 32 | none => 1
  let idx := match old with | some x => (x.1 + 1) % countSlots | none => 0
  { s with boot := { s.boot with count := n, bootIdx := (idx + 1) % countSlots,
                                 smem := writeSlot 0x3C00000 16 idx (bootCountBytes n) s.boot.smem } }

/-- The change log as the last checkpoint leaves it, and the BOOT record (R326, R380). -/
def writeBootRec (s : State) : State :=
  let c := checkpointAt s.boot.smem
  let last := match c with | some x => x.2 | none => 0
  let head := match c with | some x => smBytes s.boot.smem (0x3800000 + 64 * x.1 + 16) 32 | none => zeros 32
  let idx := match c with | some x => (x.1 + 1) % ckptSlots | none => 0
  let seq := match c with | some x => (x.2 + 1) % 2 ^ 64 | none => 0
  let s1 : State := { s with log := { s.log with recs := [], seq := last, head, ckpt := none, due := none, ckptIdx := idx } }
  appendRec seq 0x080 5 0 0 last s.boot.count ((s1.setReg pgLog 0x060 (last % 2 ^ 32)).setReg pgLog 0x064 (last / 2 ^ 32))

/-! ## Configuration records (R378, Table 16-4) -/

/-- The bits of a register that any write can set or change. -/
def writableBits (page off : Nat) : Nat :=
  match regAt page off with
  | some r => RegTable.maskOf r [.rw, .rwl, .wo, .w1c, .w1s]
  | none => 0

/-- Whether a REG record names a register, only writable bits of it, and a value in its fields' ranges. -/
def State.cfgRegOk (s : State) (page off value mask : Nat) : Bool :=
  let win := s.winOf 0x080 page off
  decide (off % 4 = 0 ∧ off < 0x1000) && (regAt page off).isSome && (mask &&& writableBits page off) == mask && mask != 0
    && (if perMaster page off then selOk page off (value &&& mask) && (!(0x010 ≤ page ∧ page < 0x020) || s.hqSelOk 0x080 page off (value &&& mask))
        else s.inRange page off win (s.taken page off win ((s.reg page off win &&& (0xFFFFFFFF ^^^ mask)) ||| (value &&& mask))))

/-- What a register holds as a write with a mask finds it: the selector, PART_MODE of the selected partition, or the file's contents. -/
def State.cfgOld (s : State) (page off : Nat) : Nat :=
  if perMaster page off then s.ownSel 0x080 page off
  else if page = pgGlb ∧ off = 0x068 then (match s.part? (s.selPart 0x080) with | some p => p.mode | none => 0)
  else s.reg page off (s.winOf 0x080 page off)

/-- A REG record. -/
def cfgReg (b : Bytes) (s : State) : Option State :=
  let page := leAt b 2 2
  let off := leAt b 4 2
  let value := leAt b 8 4
  let mask := leAt b 12 4
  if zerosAt b 6 2 && s.cfgRegOk page off value mask then
    some (takeWrite 0x080 page off ((s.cfgOld page off &&& (0xFFFFFFFF ^^^ mask)) ||| (value &&& mask)) s)
  else none

/-- An ACCESS record. -/
def cfgAccess (b : Bytes) (s : State) : Option State :=
  let target := leAt b 2 2
  let first := leAt b 4 2
  let last := max first (leAt b 6 2)
  let r := byteAt b 8
  if target ≤ 0x4FF ∧ first < 1024 ∧ last < 1024 ∧ r ≤ 3 ∧ zerosAt b 9 7 then
    some (((List.range (last + 1 - first)).map (· + first)).foldl (fun t m => t.setRight m target r) s)
  else none

/-- A SETTING record. -/
def cfgSetting (b : Bytes) (s : State) : Option State :=
  let id := leAt b 2 2
  let v := leAt b 8 8
  if !zerosAt b 4 4 then none
  else if id = 1 then (if 1 ≤ v ∧ v ≤ 8 then some { s with prof := { s.prof with storeGib := v } } else none)
  else if id = 2 then (if v ≤ 1 then some { s with primary := v } else none)
  else if id = 3 then (if v ≤ 3 then some (s.setField pgCmp 0x040 0 2 v) else none)
  else if id = 4 then (if v < 2 ^ 40 then some (s.setFlash { s.flash with slc := some (v % 256, v / 256) }) else none)
  else if id = 5 then
    let level := v % 256
    if 1 ≤ level ∧ level ≤ 16 ∧ v < 2 ^ 48 then
      let t := s.setFlash { s.flash with retry := Map.insert s.flash.retry level (v / 256 % 256, v / 65536) }
      some (t.setReg pgFlm 0x074 t.flash.retry.length)
    else none
  else none

/-- Applies one record; a record that cannot be applied is skipped and counted. -/
def cfgRecord (b : Bytes) (s : State) : State :=
  let k := byteAt b 0
  let done : Option State := if byteAt b 1 ≠ 0 then none
    else if k = 1 then cfgReg b s else if k = 2 then cfgAccess b s else if k = 3 then cfgSetting b s else none
  match done with
  | some t => t
  | none => { s with boot := { s.boot with skipped := s.boot.skipped + 1 } }

/-- Applies records in order up to one of KIND 0 or the end of the section. -/
def cfgRecords : List Bytes → State → State
  | [], s => s
  | b :: rest, s => if byteAt b 0 = 0 then s else cfgRecords rest (cfgRecord b s)

/-- Applies a configuration section as master 0x080. Its records leave no change-log record, and PG_CHG does not count them
(R378, Table 18-2), and a profile it asks for is in force when the node is READY (R434, log entry 120). -/
def applyConfig (b : Bytes) (s : State) : State :=
  let t := takeProfile (cfgRecords ((List.range (b.length / 16)).map fun k => slice b (16 * k) 16) s)
  { t with log := s.log, regs := Map.filterKV t.regs (fun k _ => k % 0x1000 != 0x020) }

/-! ## What a node comes up with -/

/-- What survives power-off (R372): the serial memory, the NAND's medium with its durable journal (R229), the fuses, the board's references
and pins, and rows awaiting post-package repair; with them the model's own queue, record of outputs and counter of free values. -/
def powerCycled (s : State) : State :=
  let f := s.flash
  let fresh := State.reset
  { fresh with
    pending := s.pending, out := s.out, fresh := s.fresh, fuses := s.fuses,
    pins := { sysRstN := true, pwrFailN := s.pins.pwrFailN, thermTripN := true, ref100 := true, ref156 := s.pins.ref156 },
    flash := { fresh.flash with
      formatted := f.formatted, worn := f.worn, closed := f.closed, opPct := f.opPct, factoryBad := f.factoryBad, blocks := f.blocks,
      units := f.units, mapHome := f.mapHome, segDurable := f.segDurable, jdurable := f.jdurable, jseq := f.jseq, jpages := f.jpages,
      ckptAt := f.ckptAt, reserveUsed := f.reserveUsed, erases0 := f.erases0, badAtFormat := f.badAtFormat },
    res := { fresh.res with remapped := s.res.remapped },
    boot := { fresh.boot with smem := s.boot.smem } }

/-- What the board's NAND says of itself at power-on (R208, R235): the geometry of FLM_GEOM0 and FLM_GEOM1, ZQ CALIBRATION LONG on every
target, and a cold mount where there is a format record (R229). A board whose NAND Table 9-1 does not support has no flash tier (log
entry 7). -/
def readNand (ces : Nat) (params : List Bytes) (s : State) : State :=
  match Geometry.ofBoard ces params with
  | none => s
  | some g =>
    let targets := (List.range 128).filter fun t => decide (t % 8 < ces)
    s.setFlash { s.flash with
      ces := g.ces, luns := g.luns, planes := g.planes, cell := g.cell, blocksPerLun := g.blocksPerLun, pagesPerBlock := g.pagesPerBlock,
      calibrated := targets.map fun t => (t, s.time), mounting := s.flash.formatted }

/-- MAC of a port (R384): 0x02, then the serial number and the port. -/
def State.macOf (s : State) (k : Nat) : Nat := 0x02 * 2 ^ 40 + (s.fuses.serial % 2 ^ 37) * 8 + k

/-- The settings of Table 16-6. -/
def blankSettings (s : State) : State :=
  let s1 := (List.range 8).foldl (fun t k =>
    (t.setReg (pgEth k) 0x048 (s.macOf k % 2 ^ 32)).setReg (pgEth k) 0x04C (s.macOf k / 2 ^ 32)) s
  let serial := s.fuses.serial
  let s2 := (((s1.setReg pgPft 0x054 (serial % 2 ^ 32)).setReg pgPft 0x058 (0x4820 * 65536 + serial / 2 ^ 32 % 65536)).setReg
    pgPft 0x05C 0).setReg pgPft 0x060 0xFE800000
  { s2.setField pgCmp 0x040 0 2 3 with
    parts := [(0, Partition.created 0 687)], prof := { Profiles.empty with storeGib := 8 },
    pft := { s2.pft with down := List.range 8 }, primary := 0 }

/-- HBM post-package repair (R335): rows remapped in the previous boot are repaired, and their reserve blocks return. -/
def repairRows (s : State) : State :=
  let s1 := (List.range 8).foldl (fun t k =>
    t.setReg (pgHbm k) 0x048 (65536 * (s.res.remapped.filter fun r => rowStack r == k).length)) s
  { s1 with res := { s1.res with remapped := [] } }

/-- Step 9: P0 in slot 0 (R115) and the DEVICE key of partition 0 (R305). -/
def startService (s : State) : State :=
  let s1 : State := { s with prof := { s.prof with slots := [(0, profSlotOf p0Image 0 2 false)], lastVer := [(0, 0)] } }
  if s1.partActive 0 then
    let (n, s2) := s1.draw
    s2.setSec { s2.sec with keys := [(0, ⟨false, Config.deviceKey n⟩)] }
  else s1

/-- Parts that fail their self-test or training are replaced or retired (R383); `lanes` holds (region × 28 + pod) × 66 + lane, `pods`
region × 28 + pod. -/
def failedParts (hbms lanes pods : List Nat) (s : State) : State :=
  let s1 := hbms.foldl (fun t k => if k < 8 then retireRegion (2 * k + 1) (retireRegion (2 * k) t) else t) s
  let lane (t : State) (x : Nat) : State :=
    let p := x / 66
    if p < 448 then
      let y := (t.pod (p / 28) (p % 28)).lane (x % 66)
      laneTested (p / 28) (p % 28) (x % 66) false
        (t.updPod (p / 28) (p % 28) fun z => { z with lanes := Map.insert z.lanes (x % 66) { y with testing := true } })
    else t
  let s2 := lanes.foldl lane s1
  pods.foldl (fun t p => if p < 448 then retirePod (p / 28) (p % 28) t else t) s2

/-- A Keeper pair that fails self-test is replaced by the spare pair (R383). -/
def failedKeeper (keepers : Nat) (s : State) : State := if keepers = 0 then s else keeperFault s

/-- After the BOOT record: the measurement generation is 0 and its cause bit clear. -/
def settleMeas (s : State) : State :=
  (s.setReg pgSec 0x058 0).setReg pgSec 0x010 (withBits (s.reg pgSec 0x010) 4 1 0)

/-- Recovery (R377): no slot passed, or no two Keeper pairs. -/
def enterRecovery (s : State) : State :=
  settleMeas (writeBootRec { s with phase := .recovery, boot := { s.boot with recovery := true } })

/-- Steps 7 to 10 with an image in place. -/
def enterService (slot : Nat) (fallback : Bool) (keepers : Nat) (hbms lanes pods : List Nat) (s : State) : State :=
  let cfg := s.sectionBytes slot 1
  let h := bootHeader s.boot.smem slot
  let s1 : State := { s with boot := { s.boot with
    bootedSlot := slot, fallback, imageSeq := leAt h 8 4, blankCfg := decide ((sectionOf h 1).2 = 0),
    fwDigest := sectionDigest h 0, cfgDigest := if (sectionOf h 1).2 = 0 then Sha256.hash [] else sectionDigest h 1 } }
  let s2 := applyConfig cfg (repairRows { s1 with prof := { s1.prof with manifests := manifestsOf (s.sectionBytes slot 2) } })
  let s3 := writeBootRec (startService s2)
  let links := (List.range 4).foldl (fun t d => t.setField (pgDie d) 0x044 0 1 1) s3
  let s4 : State := { links with
    phase := .ready, pft := { links.pft with portMode := links.field pgPft 0x040 0 2 },
    log := { links.log with digestDue := false, digest := if links.rights = [] then none else some links.accessDigest } }
  let s5 := s4.setReg pgClk 0x04C (1 + 256 * min 200 Config.smemMhz)
  settleMeas (failedKeeper keepers (failedParts hbms lanes pods s5))

/-- The boot sequence of Table 16-5, from the release of the internal reset. -/
def bootNode (keepers : Nat) (hbms lanes pods : List Nat) (s : State) : State :=
  let (n, s1) := (blankSettings s).draw
  let s2 := writeBootCount s1
  if 2 ≤ keepers then enterRecovery s2
  else match s2.chooseSlot (Config.freeChoice n) with
    | none => enterRecovery s2
    | some (slot, fallback) => enterService slot fallback keepers hbms lanes pods s2

/-- POWER_ON: SYS_RST_N rises with the rails in limits. A PWR_FAIL_N that is low holds the sequence at its first step (R429). A node
that runs is not at power-off, and nothing rises. `ces` chip enables and the parameter page's copies `params` are the board's NAND. -/
def powerOn (keepers : Nat) (hbms lanes pods : List Nat) (ces : Nat) (params : List Bytes) (s : State) : State :=
  match s.phase with
  | .ready => s
  | .recovery => s
  | .flushing => s
  | .waitPwrFail => s
  | _ =>
    let s1 := readNand ces params (powerCycled s)
    if s1.pins.pwrFailN then bootNode keepers hbms lanes pods s1 else { s1 with phase := .waitPwrFail }

/-- POWER_ON. -/
def execPowerOn (keepers : Nat) (hbms : List Nat) (failed : SelfTest) (board : Board) (s : State) : Host.Outcome State Fault Refusal :=
  ok (powerOn keepers hbms failed.lanes failed.pods board.ces board.params s)

/-- PWR_FAIL_N_RISE: the boot sequence that waits at its first step proceeds (R429); a node that has flushed does not resume (R234). -/
def pwrFailRise (keepers : Nat) (hbms lanes pods : List Nat) (s : State) : State :=
  let s1 : State := { s with pins := { s.pins with pwrFailN := true } }
  if s.phase = .waitPwrFail then bootNode keepers hbms lanes pods s1 else s1

/-- PWR_FAIL_N_RISE. -/
def execPwrFailNRise (keepers : Nat) (hbms lanes pods : List Nat) (s : State) : Host.Outcome State Fault Refusal :=
  ok (pwrFailRise keepers hbms lanes pods s)

/-! ## PLLs (R388, R393) -/

/-- PLL_LOCK_LOST: the PLL's clock stops; every crossing of it holds what it has. -/
def pllLockLost (k : Nat) (s : State) : State :=
  if 9 ≤ k ∨ s.boot.stalledPlls.contains k then s
  else setCause pgClk 0 ({ s with boot := { s.boot with stalledPlls := s.boot.stalledPlls ++ [k] } }.bump pgClk 0x050)

/-- PLL_LOCK_LOST. -/
def execPllLockLost (pll : Nat) (s : State) : Host.Outcome State Fault Refusal := ok (whenUp (pllLockLost pll) s)

/-- PLL_RELOCK: the clock returns, and the stopped side resumes with the contents it had. -/
def pllRelock (k : Nat) (s : State) : State :=
  { s with boot := { s.boot with stalledPlls := s.boot.stalledPlls.filter (· != k) } }

/-- PLL_RELOCK. -/
def execPllRelock (pll : Nat) (s : State) : Host.Outcome State Fault Refusal := ok (whenUp (pllRelock pll) s)

end Sys2Proof.Machine
end

