-- ==== Sys2Proof/Machine/Sideband.lean ====
section
/-! DEFINITION. The sideband interfaces (R440, Table 19-7): the management SMBus target and JTAG. -/
namespace Sys2Proof.Machine

/-- The master as which sideband accesses are made (Table 13-6). -/
def sidebandMaster : Nat := 0x3FF

/-- A Block Write to command 0x01: a 4-byte BAR0 offset selects a register. Another length selects nothing. -/
def smbusSelect (data : Bytes) (s : State) : State :=
  if data.length = 4 then { s with pwr := { s.pwr with smbusSel := leAt data 0 4 } } else s

/-- SMBUS_SELECT. -/
def execSmbusSelect (data : Bytes) (s : State) : Host.Outcome State Fault Refusal := ok (whenUp (smbusSelect data) s)

/-- A Block Read of command 0x02 returns the selected register's 4 bytes, with the side effects of a register read. -/
def smbusRead (s : State) : State :=
  let page := s.pwr.smbusSel / 0x1000
  let off := s.pwr.smbusSel % 0x1000 / 4 * 4
  crossRegister page true ((latchHi sidebandMaster page off s).send (.smbus (toLE 4 (s.readReg sidebandMaster page off))))

/-- SMBUS_READ. -/
def execSmbusRead (s : State) : Host.Outcome State Fault Refusal := ok (whenUp smbusRead s)

/-- A Block Write to command 0x03 of 4 bytes writes the selected register. -/
def smbusWrite (data : Bytes) (s : State) : State :=
  if data.length = 4 then writeReg sidebandMaster s.pwr.smbusSel (leAt data 0 4) 0xF s else s

/-- SMBUS_WRITE. -/
def execSmbusWrite (data : Bytes) (s : State) : Host.Outcome State Fault Refusal := ok (whenUp (smbusWrite data) s)

/-- JTAG_INSTRUCTION: boundary scan at all times. Other instructions are taken only while DEBUG_OPEN is 1, and of those R440 names
none and gives no effect: the model refuses them there. -/
def execJtagInstruction (boundaryScan : Bool) (s : State) : Host.Outcome State Fault Refusal :=
  if boundaryScan then ok (s.send .boundaryScan)
  else if s.fuses.debugOpen then .refused .debugUnit
  else ok s

end Sys2Proof.Machine
end

