-- ==== Sys2Proof/Machine/Dispatch.lean ====
section
/-! DEFINITION. The dispatch of every command of spec/opcode_table.json to its meaning. -/
namespace Sys2Proof.Machine

/-- The effect of a command on everything but the queue. -/
def exec (i : Instr) (s : State) : Host.Outcome State Fault Refusal :=
  match i with
  | .query src blk => Sys2Proof.Machine.execQuery src blk s
  | .append src blk => Sys2Proof.Machine.execAppend src blk s
  | .appendMask src blk => Sys2Proof.Machine.execAppendMask src blk s
  | .appendComplete req => Sys2Proof.Machine.execAppendComplete req s
  | .seal src blk => Sys2Proof.Machine.execSeal src blk s
  | .sealSequence page tagOk => Sys2Proof.Machine.execSealSequence page tagOk s
  | .tailRelease page => Sys2Proof.Machine.execTailRelease page s
  | .sketchLoad region => Sys2Proof.Machine.execSketchLoad region s
  | .sketchScan req => Sys2Proof.Machine.execSketchScan req s
  | .pageDispatch req item => Sys2Proof.Machine.execPageDispatch req item s
  | .gatherRelease region group => Sys2Proof.Machine.execGatherRelease region group s
  | .residueMismatch region pod lane => Sys2Proof.Machine.execResidueMismatch region pod lane s
  | .laneSelfTestDone region pod lane passed => Sys2Proof.Machine.execLaneSelfTestDone region pod lane passed s
  | .unitFault region pod => Sys2Proof.Machine.execUnitFault region pod s
  | .podFault region pod => Sys2Proof.Machine.execPodFault region pod s
  | .podSelfTestDone region pod passed => Sys2Proof.Machine.execPodSelfTestDone region pod passed s
  | .regionPartial req region => Sys2Proof.Machine.execRegionPartial req region s
  | .deadlineExpiry req => Sys2Proof.Machine.execDeadlineExpiry req s
  | .merge src blk => Sys2Proof.Machine.execMerge src blk s
  | .contributionIssue req idx => Sys2Proof.Machine.execContributionIssue req idx s
  | .contributionResult req idx => Sys2Proof.Machine.execContributionResult req idx s
  | .abort src blk => Sys2Proof.Machine.execAbort src blk s
  | .lookupDescriptors src blk => Sys2Proof.Machine.execLookupDescriptors src blk s
  | .lookupSearch src blk => Sys2Proof.Machine.execLookupSearch src blk s
  | .lookupAttach src blk => Sys2Proof.Machine.execLookupAttach src blk s
  | .insertDirectoryEntry src blk => Sys2Proof.Machine.execInsertDirectoryEntry src blk s
  | .insertClass src blk => Sys2Proof.Machine.execInsertClass src blk s
  | .insertRule src blk => Sys2Proof.Machine.execInsertRule src blk s
  | .replaceRule src blk => Sys2Proof.Machine.execReplaceRule src blk s
  | .ruleShiftDone => Sys2Proof.Machine.execRuleShiftDone s
  | .deleteConversation src blk => Sys2Proof.Machine.execDeleteConversation src blk s
  | .deleteMaskObject src blk => Sys2Proof.Machine.execDeleteMaskObject src blk s
  | .deleteDirectoryEntry src blk => Sys2Proof.Machine.execDeleteDirectoryEntry src blk s
  | .deleteRule src blk => Sys2Proof.Machine.execDeleteRule src blk s
  | .deleteProfile src blk => Sys2Proof.Machine.execDeleteProfile src blk s
  | .profileLoad src img readOk => Sys2Proof.Machine.execProfileLoad src img readOk s
  | .profileActivate => Sys2Proof.Machine.execProfileActivate s
  | .versionDrained slot => Sys2Proof.Machine.execVersionDrained slot s
  | .lendGrantRequest src blk => Sys2Proof.Machine.execLendGrantRequest src blk s
  | .lendPlacement src blk => Sys2Proof.Machine.execLendPlacement src blk s
  | .lendGrantReturn src blk => Sys2Proof.Machine.execLendGrantReturn src blk s
  | .fetch src blk => Sys2Proof.Machine.execFetch src blk s
  | .reclaim src blk => Sys2Proof.Machine.execReclaim src blk s
  | .reclaimNotice lender grant graceMs => Sys2Proof.Machine.execReclaimNotice lender grant graceMs s
  | .reclaimGraceExpiry req => Sys2Proof.Machine.execReclaimGraceExpiry req s
  | .setPartner src blk => Sys2Proof.Machine.execSetPartner src blk s
  | .mirrorStatus src blk => Sys2Proof.Machine.execMirrorStatus src blk s
  | .promote src blk => Sys2Proof.Machine.execPromote src blk s
  | .mirrorRelease src blk => Sys2Proof.Machine.execMirrorRelease src blk s
  | .handoverFreeze peer conv => Sys2Proof.Machine.execHandoverFreeze peer conv s
  | .handoverAnswer req => Sys2Proof.Machine.execHandoverAnswer req s
  | .handoverCommit conv => Sys2Proof.Machine.execHandoverCommit conv s
  | .handoverTimeout req conv => Sys2Proof.Machine.execHandoverTimeout req conv s
  | .mirrorBatchClose conv layer => Sys2Proof.Machine.execMirrorBatchClose conv layer s
  | .mirrorResync conv layer => Sys2Proof.Machine.execMirrorResync conv layer s
  | .mirrorRetry conv layer => Sys2Proof.Machine.execMirrorRetry conv layer s
  | .stubExpiry conv => Sys2Proof.Machine.execStubExpiry conv s
  | .role src blk => Sys2Proof.Machine.execRole src blk s
  | .roleGraceExpiry => Sys2Proof.Machine.execRoleGraceExpiry s
  | .roleChangeFinish => Sys2Proof.Machine.execRoleChangeFinish s
  | .claim src blk => Sys2Proof.Machine.execClaim src blk s
  | .pftSend src sqe data => Sys2Proof.Machine.execPftSend src sqe data s
  | .pftWrite src sqe data => Sys2Proof.Machine.execPftWrite src sqe data s
  | .reg src sqe => Sys2Proof.Machine.execReg src sqe s
  | .dereg src sqe => Sys2Proof.Machine.execDereg src sqe s
  | .sqTailDoorbell master slot off value => Sys2Proof.Machine.execSqTailDoorbell master slot off value s
  | .sqFetch port qp sqe data readOk => Sys2Proof.Machine.execSqFetch port qp sqe data readOk s
  | .cqHeadDoorbell master slot off value => Sys2Proof.Machine.execCqHeadDoorbell master slot off value s
  | .eqHeadDoorbell master slot off value => Sys2Proof.Machine.execEqHeadDoorbell master slot off value s
  | .srqTailDoorbell master slot off value ring => Sys2Proof.Machine.execSrqTailDoorbell master slot off value ring s
  | .queueDisable master page value => Sys2Proof.Machine.execQueueDisable master page value s
  | .cqStall port qp => Sys2Proof.Machine.execCqStall port qp s
  | .coalesceTimerExpiry port qp => Sys2Proof.Machine.execCoalesceTimerExpiry port qp s
  | .heartbeat master page value => Sys2Proof.Machine.execHeartbeat master page value s
  | .primaryLossCheck => Sys2Proof.Machine.execPrimaryLossCheck s
  | .handover master page value => Sys2Proof.Machine.execHandover master page value s
  | .functionLevelReset port fn => Sys2Proof.Machine.execFunctionLevelReset port fn s
  | .perstAssert port => Sys2Proof.Machine.execPerstAssert port s
  | .perstDeassert port => Sys2Proof.Machine.execPerstDeassert port s
  | .hostLinkDown port => Sys2Proof.Machine.execHostLinkDown port s
  | .hostLinkUp port speed width => Sys2Proof.Machine.execHostLinkUp port speed width s
  | .configurationRequest port fn => Sys2Proof.Machine.execConfigurationRequest port fn s
  | .registerWrite master addr value be => Sys2Proof.Machine.execRegisterWrite master addr value be s
  | .counterLoRead master addr => Sys2Proof.Machine.execCounterLoRead master addr s
  | .pgForce master page value => Sys2Proof.Machine.execPgForce master page value s
  | .pgLock master page value => Sys2Proof.Machine.execPgLock master page value s
  | .intArm master value => Sys2Proof.Machine.execIntArm master value s
  | .intHoldoffExpiry => Sys2Proof.Machine.execIntHoldoffExpiry s
  | .accRight master value => Sys2Proof.Machine.execAccRight master value s
  | .accDigestReady => Sys2Proof.Machine.execAccDigestReady s
  | .logMark master value => Sys2Proof.Machine.execLogMark master value s
  | .logSel master value => Sys2Proof.Machine.execLogSel master value s
  | .ckptWriteDone ok => Sys2Proof.Machine.execCkptWriteDone ok s
  | .clkLowReset master value => Sys2Proof.Machine.execClkLowReset master value s
  | .partCreate master => Sys2Proof.Machine.execPartCreate master s
  | .partResize master => Sys2Proof.Machine.execPartResize master s
  | .partDelete master => Sys2Proof.Machine.execPartDelete master s
  | .partFreed part => Sys2Proof.Machine.execPartFreed part s
  | .partReserve master => Sys2Proof.Machine.execPartReserve master s
  | .partModeWrite master value => Sys2Proof.Machine.execPartModeWrite master value s
  | .rsvSet master region => Sys2Proof.Machine.execRsvSet master region s
  | .rsvClear master region => Sys2Proof.Machine.execRsvClear master region s
  | .format master => Sys2Proof.Machine.execFormat master s
  | .formatComplete bad => Sys2Proof.Machine.execFormatComplete bad s
  | .flashOffline master => Sys2Proof.Machine.execFlashOffline master s
  | .pftOpenConnection master => Sys2Proof.Machine.execPftOpenConnection master s
  | .pftCloseConnection master => Sys2Proof.Machine.execPftCloseConnection master s
  | .keeperConnect node => Sys2Proof.Machine.execKeeperConnect node s
  | .gateCommit master value => Sys2Proof.Machine.execGateCommit master value s
  | .gateSwitch port => Sys2Proof.Machine.execGateSwitch port s
  | .gateEntryAdvance port => Sys2Proof.Machine.execGateEntryAdvance port s
  | .egressSelect port => Sys2Proof.Machine.execEgressSelect port s
  | .mbxClaim master value => Sys2Proof.Machine.execMbxClaim master value s
  | .mbxRelease master value => Sys2Proof.Machine.execMbxRelease master value s
  | .mbxGo master value => Sys2Proof.Machine.execMbxGo master value s
  | .mbxClaimTimeout => Sys2Proof.Machine.execMbxClaimTimeout s
  | .getVersion => Sys2Proof.Machine.execGetVersion s
  | .getCapabilities => Sys2Proof.Machine.execGetCapabilities s
  | .negotiateAlgorithms => Sys2Proof.Machine.execNegotiateAlgorithms s
  | .getDigests => Sys2Proof.Machine.execGetDigests s
  | .getCertificate => Sys2Proof.Machine.execGetCertificate s
  | .challenge => Sys2Proof.Machine.execChallenge s
  | .getMeasurements => Sys2Proof.Machine.execGetMeasurements s
  | .keyExchange => Sys2Proof.Machine.execKeyExchange s
  | .finish => Sys2Proof.Machine.execFinish s
  | .spdmHeartbeat => Sys2Proof.Machine.execSpdmHeartbeat s
  | .spdmHeartbeatTimeout session => Sys2Proof.Machine.execSpdmHeartbeatTimeout session s
  | .keyUpdate => Sys2Proof.Machine.execKeyUpdate s
  | .endSession => Sys2Proof.Machine.execEndSession s
  | .deliverKey => Sys2Proof.Machine.execDeliverKey s
  | .keyStatus => Sys2Proof.Machine.execKeyStatus s
  | .smbusSelect data => Sys2Proof.Machine.execSmbusSelect data s
  | .smbusRead => Sys2Proof.Machine.execSmbusRead s
  | .smbusWrite data => Sys2Proof.Machine.execSmbusWrite data s
  | .pftSendPacket p => Sys2Proof.Machine.execPftSendPacket p s
  | .pftWritePacket p => Sys2Proof.Machine.execPftWritePacket p s
  | .pftAck p => Sys2Proof.Machine.execPftAck p s
  | .ackDelayExpiry conn => Sys2Proof.Machine.execAckDelayExpiry conn s
  | .retransmitTimeout conn => Sys2Proof.Machine.execRetransmitTimeout conn s
  | .connect p => Sys2Proof.Machine.execConnect p s
  | .accept p => Sys2Proof.Machine.execAccept p s
  | .close p => Sys2Proof.Machine.execClose p s
  | .event p => Sys2Proof.Machine.execEvent p s
  | .beacon p => Sys2Proof.Machine.execBeacon p s
  | .beaconSend => Sys2Proof.Machine.execBeaconSend s
  | .peerSilent node => Sys2Proof.Machine.execPeerSilent node s
  | .neighborSolicitation port ends => Sys2Proof.Machine.execNeighborSolicitation port ends s
  | .neighborAdvertisement port target mac => Sys2Proof.Machine.execNeighborAdvertisement port target mac s
  | .echoRequest port ends payload => Sys2Proof.Machine.execEchoRequest port ends payload s
  | .frameDiscard port oversize pauseOrPfc => Sys2Proof.Machine.execFrameDiscard port oversize pauseOrPfc s
  | .laneFailure port lane => Sys2Proof.Machine.execLaneFailure port lane s
  | .linkDown port => Sys2Proof.Machine.execLinkDown port s
  | .linkUp port => Sys2Proof.Machine.execLinkUp port s
  | .ref156Lost => Sys2Proof.Machine.execRef156Lost s
  | .ref156Return => Sys2Proof.Machine.execRef156Return s
  | .ageEvent page => Sys2Proof.Machine.execAgeEvent page s
  | .pressureEval => Sys2Proof.Machine.execPressureEval s
  | .migrationComplete page => Sys2Proof.Machine.execMigrationComplete page s
  | .migrationFail page => Sys2Proof.Machine.execMigrationFail page s
  | .sourceCopyRelease page => Sys2Proof.Machine.execSourceCopyRelease page s
  | .eviction req => Sys2Proof.Machine.execEviction req s
  | .flashRead unit cw first later soft => Sys2Proof.Machine.execFlashRead unit cw first later soft s
  | .journalCommit => Sys2Proof.Machine.execJournalCommit s
  | .mapSegmentWriteback seg => Sys2Proof.Machine.execMapSegmentWriteback seg s
  | .garbageCollection copying => Sys2Proof.Machine.execGarbageCollection copying s
  | .blockErase block => Sys2Proof.Machine.execBlockErase block s
  | .refresh copying => Sys2Proof.Machine.execRefresh copying s
  | .wearLevel copying => Sys2Proof.Machine.execWearLevel copying s
  | .zqCalibration target => Sys2Proof.Machine.execZqCalibration target s
  | .coldMountComplete ok failed => Sys2Proof.Machine.execColdMountComplete ok failed s
  | .warmMountComplete ok => Sys2Proof.Machine.execWarmMountComplete ok s
  | .pwrFailNFall => Sys2Proof.Machine.execPwrFailNFall s
  | .flushComplete => Sys2Proof.Machine.execFlushComplete s
  | .powerOn keepers hbms failed board => Sys2Proof.Machine.execPowerOn keepers hbms failed board s
  | .sysRstNFall => Sys2Proof.Machine.execSysRstNFall s
  | .railFault rail => Sys2Proof.Machine.execRailFault rail s
  | .ref100Lost => Sys2Proof.Machine.execRef100Lost s
  | .pllLockLost pll => Sys2Proof.Machine.execPllLockLost pll s
  | .powerDecision deciwatts => Sys2Proof.Machine.execPowerDecision deciwatts s
  | .avsSettled => Sys2Proof.Machine.execAvsSettled s
  | .avsFail => Sys2Proof.Machine.execAvsFail s
  | .temperatureSample tj sensor hbms => Sys2Proof.Machine.execTemperatureSample tj sensor hbms s
  | .pwrProfile master value => Sys2Proof.Machine.execPwrProfile master value s
  | .cmpEpoch master value => Sys2Proof.Machine.execCmpEpoch master value s
  | .cmpMctrl master value => Sys2Proof.Machine.execCmpMctrl master value s
  | .meteringSample => Sys2Proof.Machine.execMeteringSample s
  | .quiesceWrite master out value => Sys2Proof.Machine.execQuiesceWrite master out value s
  | .domainDrained domain => Sys2Proof.Machine.execDomainDrained domain s
  | .rstPulse master value => Sys2Proof.Machine.execRstPulse master value s
  | .domainReady domain => Sys2Proof.Machine.execDomainReady domain s
  | .smErase master => Sys2Proof.Machine.execSmErase master s
  | .smProgram master => Sys2Proof.Machine.execSmProgram master s
  | .smRead master => Sys2Proof.Machine.execSmRead master s
  | .smDone => Sys2Proof.Machine.execSmDone s
  | .patrolScrub hbm loc bytes words lies => Sys2Proof.Machine.execPatrolScrub hbm loc bytes words lies s
  | .hbmEccError stack channel row errs page slot space => Sys2Proof.Machine.execHbmEccError stack channel row errs page slot space s
  | .tagFail page unit space req sparePasses => Sys2Proof.Machine.execTagFail page unit space req sparePasses s
  | .aesKnownAnswerTest region passed bad => Sys2Proof.Machine.execAesKnownAnswerTest region passed bad s
  | .sramUncorr place errs => Sys2Proof.Machine.execSramUncorr place errs s
  | .flitError network loc words => Sys2Proof.Machine.execFlitError network loc words s
  | .d2dRepair die module => Sys2Proof.Machine.execD2dRepair die module s
  | .keeperFault pair => Sys2Proof.Machine.execKeeperFault pair s
  | .watchdog block region => Sys2Proof.Machine.execWatchdog block region s
  | .margin kind index value => Sys2Proof.Machine.execMargin kind index value s
  | .workUnitComplete region pod req item => Sys2Proof.Machine.execWorkUnitComplete region pod req item s
  | .pwrFailNRise keepers hbms lanes pods => Sys2Proof.Machine.execPwrFailNRise keepers hbms lanes pods s
  | .pllRelock pll => Sys2Proof.Machine.execPllRelock pll s
  | .ethCtrlEnable master port value => Sys2Proof.Machine.execEthCtrlEnable master port value s
  | .jtagInstruction boundaryScan => Sys2Proof.Machine.execJtagInstruction boundaryScan s

end Sys2Proof.Machine
end

