-- ==== Sys2Proof/Machine/Step.lean ====
section
/-! DEFINITION. One step: the command at the front of the queue, or an idle tick of the local clock. -/
namespace Sys2Proof.Machine

/-- With no command waiting, one nanosecond of local time passes (log entry 2); in a node that is up, arbiters and links go on. -/
def idle (s : State) : State :=
  let t : State := { s with time := s.time + 1 }
  if s.phase = .ready then clockTick t else t

/-- The block's step: the front command's effect on the state with the rest of the queue; an empty queue idles. -/
def step (s : State) : Host.Outcome State Fault Refusal :=
  match s.pending with
  | c :: rest => exec c { s with pending := rest }
  | [] => .next (idle s)

/-- The state with the command that a table word spells put at the front of the queue. -/
def State.withFetchWord (s : State) (nbits w : Nat) : State :=
  match decodeTableWord nbits w with
  | some c => { s with pending := c :: s.pending }
  | none => s

end Sys2Proof.Machine
end

