-- ==== Sys2Proof/Safety.lean ====
section
/-! DEFINITION. The terms that claims use: what counts as a safe run, and what a change that only reports (an interrupt
cause, a record, a log entry, a message, a completion) may touch. -/
namespace Sys2Proof.Machine

/-- Whether an outcome is a next state. -/
def completes (o : Host.Outcome State Fault Refusal) : Prop := ∃ t, o = .next t

/-- The state one step later, where there is one. -/
def Steps (s t : State) : Prop := step s = .next t

/-- Reachable by steps. -/
inductive Reaches : State → State → Prop where
  | refl (s : State) : Reaches s s
  | tail {a b c : State} : Reaches a b → Steps b c → Reaches a c

/-- The canonical forms of the collections that the outside world can address: the serial memory (R373). -/
def Canonical (s : State) : Prop := Memory.wf s.boot.smem = true

/-- The registers that reporting changes, by the key of the register file (BAR0 address, plus 0x4000000 × window): PG_CAUSE,
PG_STAT, PG_CHG and PG_OWNER of every page (R412, R368, Table 18-2), INT_ARM and the message counter (R420), ACC's denial counter and last denial (R318), the
measurement generation (R316), the counter of lost records (R260), the CMP_MSAT bits and CMP's routing counters (R371, R362), and a queue pair's ENABLE, which a
completion clears at the end of a disable (R282). -/
def reportReg (k : Nat) : Bool :=
  let off := k % 0x1000
  let page := k / 0x1000 % 0x4000
  off == 0x010 || off == 0x00C || off == 0x020 || off == 0x024 || (page == 0x001 && (off == 0x044 || off == 0x050))
    || (page == 0x003 && (off == 0x070 || off == 0x074)) || (page == 0x008 && off == 0x058)
    || (page == 0x020 && off == 0x0E0) || (page == 0x090 && (off == 0x060 || decide (0x088 ≤ off ∧ off ≤ 0x094)))
    || (decide (0x010 ≤ page ∧ page < 0x020) && off == 0x074)

/-- The usage counters that reporting changes: packets and bytes sent over PFT, bytes mirrored, and the metering counters (R366, R368). -/
def reportCnt (k : Nat) : Bool :=
  let off := k % 0x1000
  let page := k / 0x1000 % 0x4000
  (page == 0x020 && (off == 0x0A0 || off == 0x0B0)) || (page == 0x080 && off == 0x0A8) || (page == 0x090 && decide (0x064 ≤ off ∧ off < 0x08C))

/-- A connection without what sending on it changes: its numbers, its packets, its messages and its timer. -/
def Conn.quiet (c : Conn) : Conn :=
  { c with nextPsn := 0, nextMsg := 0, path := 0, pkts := [], msgs := [], waitq := [], txTotal := 0, rto := 0, expiries := 0, timer := 0 }

/-- A request entry without the results of its contributions. -/
def Req.quiet (r : Req) : Req := { r with contribs := [] }

/-- A state without what reporting changes: the observations, the free-value counter, the event queues, the completion side
of the queue pairs, the completed-request record, the change log, the frames waiting on the ports, and the register file,
counters, connections and request entries, which `Reports` compares one by one. -/
def State.still (s : State) : State :=
  { s with out := [], fresh := 0, regs := [], cnt := [], eqs := [], queues := [], done := [], reqs := [], log := .empty,
           lastMsg := none, msgPending := false,
           pft := { s.pft with conns := [], sends := [], fogSeq := 0 },
           tc := { s.tc with queues := [] } }

/-- State `t` is state `s` but for what reporting changes. Every other field is the same; a register or counter that reporting
does not change, and a connection and a request entry but for what sending and answering change, are the same; and what has
been sent stays sent. -/
structure Reports (s t : State) : Prop where
  still : t.still = s.still
  regs : ∀ page off win, reportReg (regKey page off win) = false → t.reg page off win = s.reg page off win
  cnt : ∀ page off win, reportCnt (regKey page off win) = false → t.cnt64 page off win = s.cnt64 page off win
  conns : ∀ i, (Map.find? t.pft.conns i).map Conn.quiet = (Map.find? s.pft.conns i).map Conn.quiet
  reqs : ∀ r, (Map.find? t.reqs r).map Req.quiet = (Map.find? s.reqs r).map Req.quiet
  out : s.out <+: t.out

/-- A write by `master` to the register at `page` and `off` passes every check (R279, R296, R318, R377, R409). -/
structure MayWrite (s : State) (master page off : Nat) : Prop where
  up : s.phase = .ready ∨ s.phase = .recovery
  offered : s.offered page = true
  primary : isHost master = true → masterPort master = s.primary ∨ globalExempt master page off = true
  right : writeNeeds page ≤ s.right master page
  ready : s.pageReady page = true

/-- The port a source names is one of the two, or the source names none. -/
def Src.portOk : Sys2Proof.Src → Bool
  | .host port _ _ _ _ _ => decide (port < 2)
  | _ => true

/-- A command with an opcode is taken now: the node is in service and no domain that the command needs is quiesced (R377, R389). -/
structure Takes (s : State) (op : Nat) : Prop where
  up : s.phase = .ready
  opened : s.commandWaits op = false

/-- The registers of the file that have no row of their own in the command table and no checks beyond those of every write. -/
def ordinary (page off : Nat) : Bool :=
  match blockOf page with
  | some .glb => off != 0x068 && off != 0x088
  | some .int => off != 0x040 && off != 0x044
  | some .log => off != 0x06C
  | some .acc => off != 0x048
  | some .clk => off != 0x040
  | some .rst => false
  | some .pwr => off != 0x040
  | some .sec => off != 0x044 && decide (off < 0x800)
  | some .hq => false
  | some .eth => off != 0x044
  | some .tc => off != 0x080
  | some .flm => off != 0x058
  | some .cmp => off != 0x05C
  | some .regn => off != 0x06C
  | some _ => true
  | none => false

/-- The mailbox shows a message of these bytes (R313). -/
structure MailShows (s : State) (b : Bytes) : Prop where
  done : s.sec.busy = false ∧ s.sec.resp = true
  len : s.sec.rlen = b.length
  data : ∀ k, 4 * k < b.length → s.reg pgSec (0x800 + 4 * k) = leAt b (4 * k) 4

/-- An SPDM exchange runs and the mailbox holds a request (R312, R313): the session it came in, the message and its code. -/
structure MailAsks (s : State) (sess : Option Nat) (m : Bytes) (code : Nat) : Prop where
  up : s.phase = .ready
  opened : s.quiet 23 = false
  busy : s.sec.busy = true
  mail : s.mail = .ok (sess, m)
  code : byteAt m 1 = code

/-- The words of the mailbox, by the key of the register file. -/
def mailReg (k : Nat) : Bool := decide (k / 0x1000 % 0x4000 = 0x008 ∧ 0x800 ≤ k % 0x1000)

/-- State `t` is state `s` but for the security processor, the words of the mailbox and what reporting changes. -/
structure Answers (s t : State) : Prop where
  still : ({ t with sec := s.sec } : State).still = s.still
  regs : ∀ page off win, reportReg (regKey page off win) = false → mailReg (regKey page off win) = false →
    t.reg page off win = s.reg page off win
  owner : t.sec.owner = s.sec.owner
  done : t.sec.busy = false ∧ t.sec.resp = true ∧ bitOf (t.reg pgSec 0x010) 0 = true

/-- A frame with a packet of type `typ` arrives that the checks of R237, R239 and R240 let pass: PFT is enabled, its port is up, no
domain it needs is quiesced, it is of 64 to 9,216 bytes and for this node, and its UDP checksum and its header are right. -/
structure Arrives (s : State) (p : Packet) (typ : Nat) : Prop where
  up : s.phase = .ready
  enabled : s.pftEnabled = true
  port : s.upPorts.contains p.port = true
  opened : s.quiet 17 = false ∧ s.quiet 18 = false
  frame : 64 ≤ p.frameLen ∧ p.frameLen ≤ 9216 ∧ s.addressed p = true
  right : p.csumOk = true ∧ hdrOk p.hdr = true ∧ pType p.hdr = typ

/-- The state once an arriving frame is counted at its port (R262). -/
def heard (p : Packet) (s : State) : State := countUp (pgEth p.port) 0x078 p.frameLen (countUp (pgEth p.port) 0x068 1 s)

/-- Every connection but `i` is as it was, but for what sending on it changes. -/
def OthersKept (s t : State) (i : Nat) : Prop :=
  ∀ k, k ≠ i → (Map.find? t.pft.conns k).map Conn.quiet = (Map.find? s.pft.conns k).map Conn.quiet

/-- Connection `c` is the one a packet is for (R246). -/
def IsFor (s : State) (p : Packet) (c : Conn) : Prop :=
  Map.find? s.pft.conns (pDst p.hdr) = some c ∧ c.node = pNode p.hdr ∧ c.peer = pSrc p.hdr

/-- A command that names a tenant's object, and passes every check that such commands share (R60, R122, R183, R361): it is taken now, its
source has the right on the tenant's partition, which has its key; COMP and EPOCH let it pass; a request entry is free, no request of the
same number runs, and the conversation named is not frozen. `held` says whether the object is held here. -/
structure Admits (s : State) (src : Src) (op id tenant need comp epoch : Nat) (object : Option Nat) (held : Bool) (part : Nat) : Prop where
  taken : Takes s op
  right : s.authorise src tenant need = some part
  keyed : s.keyed part = true
  comp : s.compCheck comp epoch object held = .pass false
  room : s.entryFree (some part) = true ∧ s.duplicate (s.masterOf src) id = false
  thawed : ∀ h, object = some h → s.frozen h = false

/-- A command that needs ADMIN on a page, and passes the checks of R183 and R296. -/
structure AdmitsAdmin (s : State) (src : Src) (op page id comp epoch : Nat) : Prop where
  taken : Takes s op
  primary : s.secondary src = false
  right : 3 ≤ s.right (s.masterOf src) page
  comp : s.compCheck comp epoch none false = .pass false
  room : s.entryFree (s.srcPart src) = true ∧ s.duplicate (s.masterOf src) id = false

/-- Nothing waits to be released: no conversation is being deleted and every page has a share (R41, R55). -/
def Kept (s : State) : Prop := (∀ kv ∈ s.convs, kv.2.deleting = false) ∧ ∀ kv ∈ s.pages, kv.2.shares ≠ 0

/-- The command of this number from this source has committed with this status as the latest commit (R159). -/
def Committed (s t : State) (src : Src) (id status : Nat) : Prop := t.done.head? = some (id, s.masterOf src, status)

end Sys2Proof.Machine
end

