-- ==== Sys2Proof/Certificates/Slice0/Obligations.lean ====
section
/-! DEFINITION. The statements about the PX4820 that are to be proved. Each says which rule of the spec it formalises. -/
open Sys2Proof Sys2Proof.Machine

/-! ## Steps, reset and the whole machine -/

/-- A step with a command at the front of the queue is that command's effect on the state with the rest of the queue.
An empty queue idles: one nanosecond of local time passes, and in a node that is up the arbiters and the links go on: a slot that a STRICT partition holds
serves no other partition, and is counted idle where that one has no access (R19, R402). In any other node nothing else changes.
Where the spec leaves it to the model, its choices are those of log entries 2 and 151. -/
def Obligations.StepTakesFront : Prop :=
  (∀ (c : Instr) (rest : List Instr) (s : State), step { s with pending := c :: rest } = exec c { s with pending := rest })
  ∧ (∀ (s : State), s.pending = [] →
       ∃ t, step s = .next t ∧ t.time = s.time + 1
         ∧ (s.phase ≠ .ready → t = { s with time := s.time + 1 })
         ∧ (∀ r, { t.region r with arb := (s.region r).arb } = s.region r)
         ∧ (∀ r p, s.phase = .ready → r < 16 → (s.region r).retired = false →
             let a := (s.region r).arb
             a.since + a.slotNs ≤ s.time + 1 → (s.region r).holder (if a.cur + 1 < a.frame then a.cur + 1 else 0) = some p →
             (∀ q, q ≠ p → Map.getD (t.region r).arb.waiting q 0 = Map.getD a.waiting q 0)
               ∧ (Map.has a.waiting p = false → t.cnt64 (pgRegn r) 0x088 = sat64 (s.cnt64 (pgRegn r) 0x088) 1))
         ∧ Reports { s with time := t.time, regions := t.regions, links := t.links, cnt := t.cnt } t)

/-- What the part holds before its first power-on: rights as in Table 13-6 (R317), a log head of 32 zero bytes and SEQ 0 (R325), a
flash controller that is OFFLINE (R228), no partition, conversation, page, key or connection, and no command waiting.
Where the spec leaves it to the model, its choices are those of log entry 3. -/
def Obligations.ResetHolds : Prop :=
  let s := State.reset
  (∀ m t, s.right m t = resetRight m t) ∧ s.log.head = List.replicate 32 0 ∧ s.log.seq = 0 ∧ s.flash.st = 0
    ∧ s.parts = [] ∧ s.convs = [] ∧ s.pages = [] ∧ s.sec.keys = [] ∧ s.pft.conns = [] ∧ s.pending = []
    ∧ (∀ page off win, s.reg page off win = regReset page off win % 2 ^ 32)

/-- The serial memory is in canonical form at reset.
Where the spec leaves it to the model, its choices are those of log entry 6. -/
def Obligations.ResetCanonical : Prop := Canonical State.reset

/-- Every step keeps the serial memory's canonical form: addresses below 64 MiB, strictly rising, no erased byte listed.
Where the spec leaves it to the model, its choices are those of log entry 6. -/
def Obligations.StepKeepsCanonical : Prop := ∀ s t : State, Canonical s → Steps s t → Canonical t

/-- No command touches the queue of waiting commands, and none changes a fuse, which is fixed at manufacture (R1, R384, R443).
Where the spec leaves it to the model, its choices are those of log entries 1 and 48. -/
def Obligations.ExecKeepsQueueAndFuses : Prop :=
  ∀ (c : Instr) (s t : State), exec c s = .next t → t.pending = s.pending ∧ t.fuses = s.fuses

/-- Every command but a debug instruction of an open JTAG port completes in every state: none ends in a fault, and only
JTAG_INSTRUCTION while DEBUG_OPEN is 1 is refused.
Where the spec leaves it to the model, its choices are those of log entries 9 and 10. -/
def Obligations.EveryCommandCompletes : Prop :=
  ∀ (c : Instr) (s : State), (∀ b, c = .jtagInstruction b → b = true ∨ s.fuses.debugOpen = false) → completes (exec c s)

/-! ## Registers -/

/-- A write that changes an ordinary register stores the new value: its writable bits from the value written, its other bits as they
were. The change is one REGISTER record (kind 0), counted in PG_CHG, with the master in PG_OWNER; nothing else changes, but that a
token bucket whose rate or depth the register holds gains first what it has coming at the rate so far (R267, R323, R324, Table 18-2). `u` is the state once the write has crossed the link to its page's die (R21).
Where the spec leaves it to the model, its choices are those of log entries 13, 16, 58, 91 and 151. -/
def Obligations.RegisterWriteStored : Prop :=
  ∀ (s : State) (master page off : Nat) (value : W32),
    MayWrite s master page off → off < 0x1000 → off % 4 = 0 → 0x040 ≤ off → (regAt page off).isSome = true →
    ordinary page off = true → perMaster page off = false → isCounter page off = false →
    let u := crossRegister page false s
    let win := u.winOf master page off
    let old := u.reg page off win
    let m := u.writable page off
    let new := (old &&& (0xFFFFFFFF ^^^ m)) ||| adjust page off (value.toNat &&& m)
    new < 2 ^ 32 → new ≠ old → u.inRange page off win new = true →
    ∃ t, exec (.registerWrite master (page * 0x1000 + off) value 0xF) s = .next t
      ∧ t.reg page off win = new ∧ t.reg page 0x024 = master % 2 ^ 32 ∧ t.reg page 0x020 = (u.reg page 0x020 + 1) % 2 ^ 32
      ∧ t.log.seq = (u.log.seq + 1) % 2 ^ 64
      ∧ t.log.recs.head? = some { seq := (u.log.seq + 1) % 2 ^ 64, boot := u.boot.count, master, kind := 0, target := page,
                                  time := u.time, offset := off, old := old + win * 2 ^ 32, new := new + win * 2 ^ 32,
                                  link := u.log.head.take 16 }
      ∧ Reports ((beforeWrite page off win u).setReg page off new win) t

/-- Writes that are turned away change no register but the counters that say so: a partial-byte write (R413), a write by a function of
the port that is not primary (R296), one without the right (R318), and one to a page that is not ready (R409).
Where the spec leaves it to the model, its choices are those of log entry 12. -/
def Obligations.RegisterWriteTurnedAway : Prop :=
  ∀ (s : State) (master page off : Nat) (value : W32), off < 0x1000 → off % 4 = 0 → (s.phase = .ready ∨ s.phase = .recovery) →
    let foreign := isHost master = true ∧ masterPort master ≠ s.primary ∧ globalExempt master page off = false
    let c (be : Nat) : Instr := .registerWrite master (page * 0x1000 + off) value be
    (∀ be, be ≠ 0xF → ∃ t, exec (c be) s = .next t ∧ Reports (s.bump pgGlb 0x090) t ∧ bitOf (t.reg pgGlb 0x010) 2 = true)
      ∧ (s.offered page = true →
          (foreign → exec (c 0xF) s = .next (s.bump (pgHq (masterPort master) 0) 0x0C8))
            ∧ (¬foreign → s.right master page < writeNeeds page →
                ∃ t, exec (c 0xF) s = .next t ∧ Reports s t ∧ t.reg pgAcc 0x070 = sat32 (s.reg pgAcc 0x070) 1
                  ∧ bitOf (t.reg pgAcc 0x010) 1 = true)
            ∧ (¬foreign → writeNeeds page ≤ s.right master page → s.pageReady page = false →
                exec (c 0xF) s = .next (s.bump pgGlb 0x094)))

/-- Reading the low half of a 64-bit counter answers the low half and latches the high half for the reading master: until that master
reads a low half again, its high half reads as it stood, whatever the counter has become (R415). The answer crosses the link of the
page's die (R21).
Where the spec leaves it to the model, its choices are those of log entry 151. -/
def Obligations.CounterReadLatches : Prop :=
  ∀ (s : State) (master page lo hi : Nat), (s.phase = .ready ∨ s.phase = .recovery) → s.offered page = true →
    1 ≤ s.right master page → s.pageReady page = true → lo < 0x1000 → lo % 4 = 0 → 0x010 ≤ lo → hiOf page lo = some hi →
    ownPage master page lo = page → (regAt page lo).isSome = true → perMaster page lo = false →
    let win := s.winOf master page lo
    ∃ t, exec (.counterLoRead master (page * 0x1000 + lo)) s = .next (crossRegister page true t)
      ∧ t.out = s.out ++ [.readData master (page * 0x1000 + lo) (BitVec.ofNat 32 (s.pair page lo win % 2 ^ 32))]
      ∧ (∀ v, ({ t with cnt := v } : State).hiRead master page lo win = s.pair page lo win / 2 ^ 32 % 2 ^ 32)
      ∧ { t with out := s.out, latch := s.latch } = s

/-- PG_LOCK sets once and stays (R410); PG_FORCE arms an injection of a fault that the page lists (R411); CLK_CORE.LOW_RESET sets LOW to
STEP.
INT_ARM arms the summary: with EN 0 it stays armed. When a summary bit is set, EN and ARM are 1 and HOLDOFF_US has passed, the end
of the holdoff sends one message to PF0 of the primary port and disarms (R420).
Where the spec leaves it to the model, its choices are those of log entries 57, 61 and 97. -/
def Obligations.HeadersAndInterrupts : Prop :=
  (∀ (s : State) (master page : Nat) (value : W32),
     let u := crossRegister page false s
     (MayWrite s master page 0x01C → (regAt page 0x01C).isSome = true → bitOf value.toNat 0 = true →
       ∃ t, exec (.pgLock master page value) s = .next t ∧ t.reg page 0x01C = 1 ∧ Reports (u.setReg page 0x01C 1) t)
     ∧ (MayWrite s master page 0x018 → (regAt page 0x018).isSome = true → 3 ≤ s.right master page → s.field pgGlb 0x04C 0 1 ≠ 0 →
       forceListed page (bitsOf value.toNat 0 8) = true → Map.has s.res.armed page = false →
       ∃ t, exec (.pgForce master page value) s = .next t
         ∧ Map.find? t.res.armed page = some (bitsOf value.toNat 0 8, bitsOf value.toNat 8 8)
         ∧ t.log.seq = (u.log.seq + 1) % 2 ^ 64
         ∧ Reports { u with res := { u.res with armed := Map.insert u.res.armed page (bitsOf value.toNat 0 8, bitsOf value.toNat 8 8) } } t)
     ∧ (MayWrite s master pgClk 0x040 → bitOf value.toNat 16 = true →
       let low := s.field pgClk 0x040 0 5
       ∃ t, exec (.clkLowReset master value) s = .next t ∧ t.field pgClk 0x040 8 5 = low % 32 ∧ t.log = s.log
         ∧ Reports (s.setReg pgClk 0x040 (withBits (s.reg pgClk 0x040) 8 5 low)) t))
  ∧ ((∀ (s : State) (master : Nat) (value : W32), MayWrite s master pgInt 0x044 → bitOf value.toNat 0 = true →
         ∃ t, exec (.intArm master value) s = .next t ∧ Reports s t ∧ (bitOf (s.reg pgInt 0x040) 6 = false → t.reg pgInt 0x044 = 1))
       ∧ (∀ s : State, s.phase = .ready → s.msgPending = true → s.field pgInt 0x044 0 1 = 1 → bitOf (s.reg pgInt 0x040) 6 = true →
         s.summaryPages ≠ [] → (∀ x, s.lastMsg = some x → x + bitsOf (s.reg pgInt 0x040) 16 8 * 1000 ≤ s.time) →
         ∃ t, exec .intHoldoffExpiry s = .next t ∧ t.out = s.out ++ [.msix s.primary 0 (bitsOf (s.reg pgInt 0x040) 0 6)]
           ∧ t.field pgInt 0x044 0 1 = 0 ∧ t.lastMsg = some s.time ∧ t.msgPending = false ∧ Reports s t))

/-! ## Rights and the log -/

/-- A write of ACC_RIGHT gives every master from FIRST to LAST the right on TARGET, no other master or target any, and a change clears
DIGEST_VALID (R320, R329).
The access-table digest is SHA-256 over the 1,280 tables of 256 bytes in target order, the right of master m in bits
[2(m & 3) + 1 : 2(m & 3)] of byte m >> 2 (R320). ACC_STAT.DIGEST_VALID reads 0 from a change on; ACC_DIGEST_READY makes ACC_DIGEST the
digest of the tables as they stand, sets DIGEST_VALID and changes nothing else; measurement block 4 always is the digest of the tables
at its instant. -/
def Obligations.AccessChanges : Prop :=
  (∀ (s : State) (master : Nat) (value : W32), MayWrite s master pgAcc 0x048 →
     let target := s.sel master pgAcc 0x040 % 2048
     let first := bitsOf (s.sel master pgAcc 0x044) 0 10
     let last := max first (bitsOf (s.sel master pgAcc 0x044) 16 10)
     ∃ t, exec (.accRight master value) s = .next t
       ∧ (∀ m, m < 1024 → t.right m target = if first ≤ m ∧ m ≤ last then value.toNat % 4 else s.right m target)
       ∧ (∀ m tg, m < 1024 → tg ≠ target → t.right m tg = s.right m tg)
       ∧ (t.rights ≠ s.rights → t.log.digestDue = true)
       ∧ Reports { s with rights := t.rights } t)
  ∧ ((∀ (s : State) (target m : Nat), m < 1024 → (∀ k, s.right k target < 4) →
         bitsOf (s.tableByte target (m / 4)).toNat (2 * (m % 4)) 2 = s.right m target)
       ∧ (∀ s : State, s.measurement 4
           = some (0x03, Sha256.hash ((List.range 1280).flatMap fun t => (List.range 256).map fun b => s.tableByte t b)))
       ∧ (∀ (s : State) (m : Nat), 1 ≤ s.right m pgAcc → s.pageReady pgAcc = true → s.offered pgAcc = true →
         (s.readReg m pgAcc 0x04C = 1 ↔ s.log.digestDue = false))
       ∧ (∀ s : State, s.phase = .ready → s.log.digestDue = true →
         exec .accDigestReady s
           = .next { s with log := { s.log with digestDue := false, digest := some (Sha256.hash
               ((List.range 1280).flatMap fun t => (List.range 256).map fun b => s.tableByte t b)) } }))

/-- Writing LOG_MARK_HI appends a MARK record (kind 4) whose NEW is LOG_MARK_HI:LOG_MARK_LO, and sets MARKED (R327); where it changes the
register, the REGISTER record of the change stands before it.
Writing LOG_SEL_LO latches, for the writing master alone, the record with the SEQ of LOG_SEL_HI:LOG_SEL_LO, or a miss (R330). -/
def Obligations.ChangeLogWorks : Prop :=
  (∀ (s : State) (master : Nat) (value : W32), MayWrite s master pgLog 0x06C →
     let same := s.reg pgLog 0x06C = value.toNat
     ∃ t r, exec (.logMark master value) s = .next t ∧ t.log.recs.head? = some r
       ∧ r.seq = (s.log.seq + (if same then 1 else 2)) % 2 ^ 64 ∧ r.boot = s.boot.count ∧ r.master = master ∧ r.kind = 4 ∧ r.target = 0
       ∧ r.time = s.time ∧ r.offset = 0 ∧ r.old = 0 ∧ r.new = s.reg pgLog 0x068 + value.toNat * 2 ^ 32
       ∧ (same → r.link = s.log.head.take 16)
       ∧ (¬same → t.log.recs[1]? = some { seq := (s.log.seq + 1) % 2 ^ 64, boot := s.boot.count, master, kind := 0, target := pgLog,
                                          time := s.time, offset := 0x06C, old := s.reg pgLog 0x06C, new := value.toNat,
                                          link := s.log.head.take 16 })
       ∧ bitOf (t.reg pgLog 0x010) 3 = true ∧ Reports (s.setReg pgLog 0x06C value.toNat) t)
  ∧ (∀ (s : State) (master : Nat) (value : W32), MayWrite s master pgLog 0x050 →
       ∃ t, exec (.logSel master value) s = .next t
         ∧ Map.find? t.log.marks master
             = some (s.log.recs.find? fun r => r.seq == value.toNat + s.sel master pgLog 0x054 * 2 ^ 32)
         ∧ (∀ m, m ≠ master → Map.find? t.log.marks m = Map.find? s.log.marks m)
         ∧ { t with log := s.log, sels := s.sels } = s)

/-! ## The mailbox and the SPDM responder -/

/-- CLAIM takes a mailbox that is not OWNED and is ignored on one that is; RELEASE gives it back; GO with a length starts the exchange
of a message that a step of the responder serves; 100 ms without a write by the owner and with no exchange release it (R313).
The claim of a silent owner ends (R313).
Where the spec leaves it to the model, its choices are those of log entries 36 and 105. -/
def Obligations.MailboxOpensAndCloses : Prop :=
  (∀ (s : State) (master : Nat) (value : W32), MayWrite s master pgSec 0x044 →
     (value = 1 →
       (s.sec.owner = none → exec (.mbxClaim master value) s
           = .next { s with sec := { s.sec with owner := some master, lastWrite := s.time, resp := false, rlen := 0, len := 0 } })
         ∧ (s.sec.owner.isSome = true → exec (.mbxClaim master value) s = .next s))
     ∧ (value = 2 →
       (s.sec.owner = some master → s.sec.busy = false →
           exec (.mbxRelease master value) s = .next { s with sec := { s.sec with owner := none } })
         ∧ (s.sec.owner ≠ some master → exec (.mbxRelease master value) s = .next s))
     ∧ (∀ len, 4 ≤ len → len ≤ 2048 → value = BitVec.ofNat 32 (len * 65536 + 4) → s.sec.owner = some master → s.sec.busy = false →
       let u : State := { s with sec := { s.sec with len, busy := true, resp := false, lastWrite := s.time } }
       earlyError u = none → exec (.mbxGo master value) s = .next u))
  ∧ (∀ s : State, s.phase = .ready → s.sec.owner.isSome = true → s.sec.busy = false → s.sec.lastWrite + 100000000 ≤ s.time →
       exec .mbxClaimTimeout s = .next { s with sec := { s.sec with owner := none } })

/-- The negotiation (R312): GET_VERSION answers version 1.2 alone and starts anew; GET_CAPABILITIES follows it, NEGOTIATE_ALGORITHMS
follows that. Each answers in the mailbox, raises MBX_DONE, and changes nothing outside the security processor.
The identity (R312): GET_DIGESTS answers the hash of slot 0's chain, GET_CERTIFICATE a portion of it with what remains, CHALLENGE the
chain's hash, a nonce of 32 bytes, the summary hash where it is asked for, and a signature of 64 bytes.
GET_MEASUREMENTS (R315, R316): index 0 answers the number of blocks that exist; an answer carries the blocks as they stand at that
instant. Nothing outside the security processor changes.
Where the spec leaves it to the model, its choices are those of log entries 36 and 49. -/
def Obligations.SpdmAnswers : Prop :=
  (∀ (s : State) (sess : Option Nat) (m : Bytes),
     (MailAsks s sess m 0x84 → ∃ t, exec .getVersion s = .next t ∧ Answers s t
         ∧ t.sec.version = true ∧ t.sec.caps = false ∧ t.sec.algs = false ∧ t.sec.keys = s.sec.keys
         ∧ (sess = none → MailShows t (zeros 4 ++ [0x10, 0x04, 0, 0, 0, 1, 0x00, 0x12])))
     ∧ (MailAsks s sess m 0xE1 → s.sec.version = true → ∃ t, exec .getCapabilities s = .next t ∧ Answers s t
         ∧ t.sec.caps = true ∧ t.sec.algs = s.sec.algs ∧ t.sec.keys = s.sec.keys
         ∧ (sess = none → ∃ body : Bytes, body.length = 16 ∧ MailShows t (zeros 4 ++ [0x12, 0x61, 0, 0] ++ body)))
     ∧ (MailAsks s sess m 0xE3 → s.sec.caps = true → ∃ t, exec .negotiateAlgorithms s = .next t ∧ Answers s t
         ∧ t.sec.algs = true ∧ t.sec.caps = true ∧ t.sec.keys = s.sec.keys))
  ∧ (∀ (s : State) (sess : Option Nat) (m : Bytes), s.sec.algs = true →
       (MailAsks s sess m 0x81 → ∃ t, exec .getDigests s = .next t ∧ Answers s t ∧ t.sec.keys = s.sec.keys
           ∧ (sess = none → MailShows t (zeros 4 ++ [0x12, 0x01, 0, 1] ++ Sha256.hash Config.certChain)))
       ∧ (MailAsks s sess m 0x82 → byteAt m 2 % 16 = 0 → leAt m 4 2 ≤ Config.certChain.length →
           let off := leAt m 4 2
           let n := min (leAt m 6 2) (min (Config.certChain.length - off) (2048 - 64))
           ∃ t, exec .getCertificate s = .next t ∧ Answers s t ∧ t.sec.keys = s.sec.keys
             ∧ (sess = none → MailShows t (zeros 4 ++ [0x12, 0x02, 0, 0] ++ toLE 2 n ++ toLE 2 (Config.certChain.length - off - n)
                                             ++ slice Config.certChain off n)))
       ∧ (MailAsks s sess m 0x83 → byteAt m 2 = 0 → ∃ t, exec .challenge s = .next t ∧ Answers s t ∧ t.sec.keys = s.sec.keys
           ∧ (sess = none → ∃ nonce sig : Bytes, nonce.length = 32 ∧ sig.length = 64
               ∧ MailShows t (zeros 4 ++ ([0x12, 0x03, 0, 1] ++ Sha256.hash Config.certChain ++ nonce
                   ++ (if byteAt m 3 = 0 then [] else s.measSummary) ++ [0, 0]) ++ sig))))
  ∧ (∀ (s : State) (sess : Option Nat) (m : Bytes), s.sec.algs = true → MailAsks s sess m 0xE0 →
       let idx := byteAt m 3
       let bs := if idx = 0 then [] else if idx = 0xFF then s.measBlocks s.measIndices else s.measBlocks [idx]
       (idx = 0 ∨ bs ≠ []) →
       ∃ t, exec .getMeasurements s = .next t ∧ Answers s t ∧ t.sec.keys = s.sec.keys
         ∧ (sess = none → bitOf (byteAt m 2) 0 = false → bs.flatten.length ≤ 1900 → ∃ nonce : Bytes, nonce.length = 32
             ∧ MailShows t (zeros 4 ++ ([0x12, 0x60, BitVec.ofNat 8 (if idx = 0 then s.measIndices.length else 0), 0, BitVec.ofNat 8 bs.length]
                 ++ toLE 3 bs.flatten.length ++ bs.flatten ++ nonce ++ [0, 0]))))

/-- Sessions (R312): KEY_EXCHANGE opens one whose handshake FINISH completes; HEARTBEAT, KEY_UPDATE and END_SESSION belong inside an
established session; the last one ends it, and so do two heartbeat periods of silence (log entry 36). -/
def Obligations.SpdmSessions : Prop :=
  (∀ (s : State) (sess : Option Nat) (m : Bytes), MailAsks s sess m 0xE4 → s.sec.algs = true → byteAt m 3 = 0 →
      s.sec.sessions.length < 16 →
      ∃ t id keys, exec .keyExchange s = .next t ∧ Answers s t ∧ t.sec.keys = s.sec.keys
        ∧ (sess = none → t.sec.sessions = Map.insert s.sec.sessions id { keys, established := false, seqNo := 0, lastHb := s.time }))
  ∧ ∀ (s : State) (m : Bytes) (k : Nat) (x : Session), Map.find? s.sec.sessions k = some x →
    (MailAsks s (some k) m 0xE5 → x.established = false → bitOf (byteAt m 2) 0 = false →
        slice m 4 32 = slice (Config.spdmVerifyData x.keys (s.sec.transcript ++ slice m 0 4)) 0 32 →
      ∃ t y, exec .finish s = .next t ∧ Answers s t ∧ Map.find? t.sec.sessions k = some y ∧ y.established = true ∧ y.keys = x.keys)
    ∧ (MailAsks s (some k) m 0xE8 → x.established = true →
      ∃ t y, exec .spdmHeartbeat s = .next t ∧ Answers s t ∧ Map.find? t.sec.sessions k = some y ∧ y.established = true
        ∧ y.lastHb = s.time ∧ y.keys = x.keys)
    ∧ (MailAsks s (some k) m 0xE9 → x.established = true → 1 ≤ byteAt m 2 → byteAt m 2 ≤ 3 →
      ∃ t y, exec .keyUpdate s = .next t ∧ Answers s t ∧ Map.find? t.sec.sessions k = some y ∧ y.established = true
        ∧ (byteAt m 2 = 3 → y.keys = x.keys))
    ∧ (MailAsks s (some k) m 0xEC → x.established = true →
      ∃ t, exec .endSession s = .next t ∧ Answers s t ∧ Map.find? t.sec.sessions k = none)
    ∧ (s.phase = .ready → x.lastHb + 2 * 10000000000 ≤ s.time →
      exec (.spdmHeartbeatTimeout k) s = .next { s with sec := { s.sec with sessions := Map.erase s.sec.sessions k } })

/-- An OK DELIVER_KEY puts the key into the partition's slot at one instant, leaves every other slot, and is one KEY record (kind 3); a
delivery that is not OK, and KEY_STATUS, leave every slot as it was (R314, R324).
A key is taken only inside an established session (R314).
Where the spec leaves it to the model, its choices are those of log entries 36 and 105. -/
def Obligations.KeysDelivered : Prop :=
  (∀ (s : State) (sess : Option Nat) (m p : Bytes), MailAsks s sess m 0xFE → vendorPayload m = some p →
     (byteAt p 0 = 1 → s.keyResult sess p = 0 →
       let part := byteAt p 1
       ∃ t, exec .deliverKey s = .next t ∧ Answers s t
         ∧ Map.find? t.sec.keys part = some { delivered := true, key := slice p 8 32 } ∧ t.keyState part = 2
         ∧ (∀ q, q ≠ part → Map.find? t.sec.keys q = Map.find? s.sec.keys q)
         ∧ (t.log.recs.head?).map (fun r => (r.kind, r.target, r.old, r.new % 2 ^ 32)) = some (3, part, s.keyState part, 2)
         ∧ bitOf (t.reg pgSec 0x010) 1 = true)
     ∧ (byteAt p 0 = 1 → s.keyResult sess p ≠ 0 → ∃ t, exec .deliverKey s = .next t ∧ Answers s t ∧ t.sec.keys = s.sec.keys)
     ∧ (byteAt p 0 = 2 → ∃ t, exec .keyStatus s = .next t ∧ Answers s t ∧ t.sec.keys = s.sec.keys ∧ t.log = s.log
         ∧ (sess = none → 
            let st := s.keyState (byteAt p 1)
            MailShows t (zeros 4 ++ [0x12, 0x7E, 0, 0, 3, 0, 2, 0x82, 0x1F, 8, 0, 2, 5, BitVec.ofNat 8 st, 0]
              ++ toLE 4 (if st = 2 then s.kcv (byteAt p 1) else 0)))))
  ∧ (∀ (s t : State) (sess : Option Nat) (m : Bytes), s.mail = .ok (sess, m) →
       (∀ k x, sess = some k → Map.find? s.sec.sessions k = some x → x.established = false) →
       exec .deliverKey s = .next t → t.sec.keys = s.sec.keys)

/-! ## Partitions and reservations -/

/-- CREATE, RESIZE, DELETE and RESERVE that pass their checks (R417): the partition's record changes as the command says, every other
partition is as before, GLB_PART_CMD shows OK and the index, PART_DONE is set and one REGISTER record is left.
A CREATE for a tenant that has a partition is DENIED, one with no index or too few units FULL, one for no unit INVALID_MODE; none
changes a partition or leaves a record (R417).
Where the spec leaves it to the model, its choices are those of log entry 55. -/
def Obligations.PartitionsChange : Prop :=
  (∀ (s : State) (master : Nat), MayWrite s master pgGlb 0x088 →
     let sel := s.selPart master
     let shown (t : State) (i : Nat) : Prop := t.reg pgGlb 0x088 = i % 256 * 2 ^ 24 ∧ bitOf (t.reg pgGlb 0x010) 0 = true
       ∧ t.log.seq = (s.log.seq + 1) % 2 ^ 64 ∧ (∀ q, q ≠ i → Map.find? t.parts q = Map.find? s.parts q)
       ∧ Reports ({ s with parts := t.parts }.setReg pgGlb 0x088 (i % 256 * 2 ^ 24)) t
     (∀ i, 1 ≤ s.argUnits → s.tenantPart s.argTenant = none → s.freePart = some i → s.argUnits ≤ s.freeUnits →
       ∃ t p, exec (.partCreate master) s = .next t ∧ shown t i ∧ Map.find? t.parts i = some p ∧ p.state = .active
         ∧ p.tenant = s.argTenant ∧ p.units = s.argUnits ∧ p.rsv = 0 ∧ p.mode = 0x30 ∧ p.partner = none ∧ p.slots = [])
     ∧ (∀ p, s.part? sel = some p → p.state = .active → 1 ≤ s.argUnits → s.argUnits - p.units ≤ s.freeUnits →
         (∀ r, r < 16 → s.partBlocks sel r ≤ shareBlocks s.argUnits) →
       ∃ t, exec (.partResize master) s = .next t ∧ shown t sel ∧ Map.find? t.parts sel = some { p with units := s.argUnits })
     ∧ (∀ p, s.part? sel = some p → p.state = .active →
       ∃ t, exec (.partDelete master) s = .next t ∧ shown t sel ∧ Map.find? t.parts sel = some { p with state := .deleting })
     ∧ (∀ p, s.part? sel = some p → p.state = .active → p.strict = true → s.strictRsv - p.rsv + s.argEntries ≤ 12288 →
       ∃ t, exec (.partReserve master) s = .next t ∧ shown t sel ∧ Map.find? t.parts sel = some { p with rsv := s.argEntries }))
  ∧ (∀ (s : State) (master : Nat), MayWrite s master pgGlb 0x088 →
       let shown (t : State) (st : Status) : Prop := bitsOf (t.reg pgGlb 0x088) 16 8 = st.code ∧ t.log = s.log ∧ t.parts = s.parts
         ∧ bitOf (t.reg pgGlb 0x010) 0 = true
       (s.argUnits = 0 → ∃ t, exec (.partCreate master) s = .next t ∧ shown t .invalidMode)
       ∧ (1 ≤ s.argUnits → (s.tenantPart s.argTenant).isSome = true → ∃ t, exec (.partCreate master) s = .next t ∧ shown t .denied)
       ∧ (1 ≤ s.argUnits → s.tenantPart s.argTenant = none → (s.freePart = none ∨ s.freeUnits < s.argUnits) →
           ∃ t, exec (.partCreate master) s = .next t ∧ shown t .full))

/-- GLB_PART_MODE of an ACTIVE partition takes the five settings written, and nothing else of the partition (R419). Leaving STRICT clears
its reservations (R405); entering FLAGGED sets every stream's flag (R193).
The background release of a DELETING partition with nothing in flight closes its connections, one that is CONNECTING excepted
(Table 10-4); once all are CLOSED it frees the index and leaves nothing of the partition: no conversation, page, mask object or key, and
the rights on its target as in Table 13-6 (R418).
REGN_RSV_CMD (R403, R423): a SET that passes the checks gives the partition the reservation of the argument registers, a CLEAR that
passes takes it away; no other partition's reservation and no other region changes. `u` is the state once the write has crossed to the
region's die (R21).
Where the spec leaves it to the model, its choices are those of log entry 54. -/
def Obligations.PartitionModesAndReserves : Prop :=
  (∀ (s : State) (master : Nat) (value : W32) (p : Partition), MayWrite s master pgGlb 0x068 →
     let part := s.selPart master
     let v := value.toNat
     s.part? part = some p → p.state = .active → bitsOf v 2 2 ≠ 3 → v % 512 ≠ p.mode →
     ∃ t q, exec (.partModeWrite master value) s = .next t ∧ Map.find? t.parts part = some q
       ∧ q.flagged = bitOf v 0 ∧ q.strict = bitOf v 1 ∧ q.mirror = bitsOf v 2 2 ∧ q.km1 = bitsOf v 4 4 ∧ q.promote = bitOf v 8
       ∧ q.state = p.state ∧ q.tenant = p.tenant ∧ q.units = p.units ∧ q.partner = p.partner ∧ q.slots = p.slots
       ∧ q.rsv = (if p.strict = true ∧ bitOf v 1 = false then 0 else p.rsv)
       ∧ (p.strict = true → bitOf v 1 = false → ∀ r, r < 16 → Map.find? (t.region r).rsv part = none)
       ∧ ((p.strict = false ∨ bitOf v 1 = true) → t.regions = s.regions)
       ∧ ((p.flagged = true ∨ bitOf v 0 = false) → t.streams = s.streams)
       ∧ (∀ k, k ≠ part → Map.find? t.parts k = Map.find? s.parts k)
       ∧ Reports { s with parts := t.parts, streams := t.streams, regions := t.regions } t)
  ∧ (∀ (s : State) (part : Nat) (p : Partition), s.phase = .ready → s.part? part = some p → p.state = .deleting → s.partQuiet part = true →
       let gone (t : State) : Prop := Map.find? t.parts part = none
         ∧ (∀ q, q ≠ part → Map.find? t.parts q = Map.find? s.parts q)
         ∧ (∀ x ∈ t.pages, x.2.part ≠ part) ∧ (∀ x ∈ t.convs, x.2.part ≠ part) ∧ (∀ x ∈ t.masks, x.2.part ≠ part)
         ∧ Map.find? t.sec.keys part = none ∧ (∀ m, m < 1024 → t.right m (0x400 + part) = resetRight m (0x400 + part))
         ∧ bitOf (t.reg pgGlb 0x010) 1 = true
       (s.partConnected part = false → ∃ t, exec (.partFreed part) s = .next t ∧ gone t)
       ∧ ∀ (i : Nat) (c : Conn), s.pft.conns = [(i, c)] → c.keeper = false → c.part = part →
         (c.state = .opened → c.pkts = [] → c.waitq = [] → ∃ t, exec (.partFreed part) s = .next t ∧ gone t
           ∧ Map.find? t.pft.conns i = some { c with state := .closed, closedAt := s.time, msgs := [] })
         ∧ (c.state = .connecting → exec (.partFreed part) s = .next s))
  ∧ (∀ (s : State) (master region : Nat), MayWrite s master (pgRegn region) 0x06C → region < 16 →
       let page := pgRegn region
       let u := crossRegister page false s
       let part := u.sel master page 0x050 % 256
       let arg : Rsv := { pods := u.field page 0x060 0 28, first := bitsOf (u.reg page 0x064) 0 9, count := bitsOf (u.reg page 0x064) 16 9,
                          gather := u.field page 0x068 0 10 }
       let none_ : Rsv := ⟨0, 0, 0, 0⟩
       let ends (t : State) (x : Rsv) : Prop := Map.getD (t.region region).rsv part none_ = x
         ∧ (∀ q, q ≠ part → Map.find? (t.region region).rsv q = Map.find? (u.region region).rsv q)
         ∧ (∀ r, r ≠ region → t.region r = u.region r) ∧ t.reg page 0x06C = 0 ∧ bitOf (t.reg page 0x010) 0 = true
         ∧ Reports ({ u with regions := t.regions }.setReg page 0x06C 0) t
       (u.rsvCheck region part true arg = true → ∃ t, exec (.rsvSet master region) s = .next t ∧ ends t arg)
       ∧ (u.rsvCheck region part false none_ = true → ∃ t, exec (.rsvClear master region) s = .next t ∧ ends t none_))

/-! ## The serial memory -/

/-- A window command that passes its checks starts its operation, shows BUSY and is logged (R381, R394).
The end of a window operation (R381): an erase leaves every byte of the address's 64 KiB sector 0xFF, a program clears bits of 256
bytes and sets none, and neither touches another byte; a read fills the buffer and changes no byte.
A checkpoint that was written stands in its slot of the serial memory and in LOG_CKPT, and raises CKPT_DONE; one that failed is
counted and raises CKPT_FAIL (R326, R380).
Where the spec leaves it to the model, its choices are those of log entries 6, 57, 100 and 101. -/
def Obligations.SerialMemoryWindow : Prop :=
  (∀ (s : State) (master : Nat), MayWrite s master pgRst 0x064 → 3 ≤ s.right master pgRst → s.boot.smOp = none →
     let a := s.field pgRst 0x060 0 26
     s.smGuarded a = false →
     let starts (c : Instr) (op : Nat) : Prop := ∃ t, exec c s = .next t ∧ t.boot = { s.boot with smOp := some (op, a, 0) }
       ∧ t.reg pgRst 0x064 = 256 ∧ t.log.seq = (s.log.seq + 1) % 2 ^ 64
       ∧ Reports ({ s with boot := t.boot }.setReg pgRst 0x064 256) t
     starts (.smErase master) 1 ∧ (a % 256 = 0 → starts (.smProgram master) 2 ∧ starts (.smRead master) 3))
  ∧ (∀ (s : State) (op a x : Nat), (s.phase = .ready ∨ s.phase = .recovery) → s.boot.smOp = some (op, a, x) → 1 ≤ op → op ≤ 3 →
       ∃ t, exec .smDone s = .next t ∧ t.boot = { s.boot with smOp := none, smem := t.boot.smem } ∧ t.reg pgRst 0x064 = 0
         ∧ bitOf (t.reg pgRst 0x010) 3 = true
         ∧ (op = 1 → ∀ k, smByte t.boot.smem k = if k / 0x10000 = a / 0x10000 then 0xFF else smByte s.boot.smem k)
         ∧ (op = 2 → ∀ k, k < 0x4000000 → smByte t.boot.smem k
             = if a ≤ k ∧ k < a + 256 then smByte s.boot.smem k &&& s.smBuffer.getD (k - a) 0 else smByte s.boot.smem k)
         ∧ (op = 3 → t.boot.smem = s.boot.smem
             ∧ ∀ k, k < 64 → t.reg pgRst (0x100 + 4 * k) = leAt (smBytes s.boot.smem a 256) (4 * k) 4))
  ∧ (∀ (s : State) (seq : Nat) (head : Bytes), s.phase = .ready → s.log.ckpt = some (seq, head) →
       (∃ t, exec (.ckptWriteDone true) s = .next t ∧ t.log.ckptIdx = (s.log.ckptIdx + 1) % 65536 ∧ t.log.ckpt = s.log.due
           ∧ t.boot.smem = writeSlot 0x3800000 64 s.log.ckptIdx (ckptBytes seq s.boot.count head) s.boot.smem
           ∧ t.reg pgLog 0x060 = seq % 2 ^ 32 ∧ bitOf (t.reg pgLog 0x010) 0 = true)
         ∧ (∃ t, exec (.ckptWriteDone false) s = .next t ∧ t.boot = s.boot ∧ t.log.ckpt = s.log.due
           ∧ t.reg pgLog 0x070 = sat32 (s.reg pgLog 0x070) 1 ∧ bitOf (t.reg pgLog 0x010) 1 = true))

/-! ## Reset domains -/

/-- Quiescing (R389): the written bits stand in the register and are logged, and DRAINED keeps only domains with both bits set.
DRAINED sets for a domain once both its bits are set (and, for the Match Engine, no shift runs). A domain that is ready again shows READY, and
the commands that waited run.
RST_PULSE pulses the domain of each bit that is 1, in rising order. A pulsed domain is sent its reset and is not READY;
a drained one gets its credits back, one that is not drained raises UNSAFE. The security processor's reset clears every key slot (R390,
R391, R305).
Where the spec leaves it to the model, its choices are those of log entries 50, 51, 52 and 53. -/
def Obligations.DomainsReset : Prop :=
  ((∀ (s : State) (master : Nat) (out : Bool) (value : W32),
       let off := if out then 0x04C else 0x048
       MayWrite s master pgRst off → s.reg pgRst off ≠ value.toNat % 2 ^ 24 →
       ∃ t u, exec (.quiesceWrite master out value) s = .next t ∧ t = runWaiting u ∧ u.reg pgRst off = value.toNat % 2 ^ 24
         ∧ u.reg pgRst 0x050 = s.reg pgRst 0x050 &&& (u.reg pgRst 0x048 &&& u.reg pgRst 0x04C)
         ∧ u.log.seq = (s.log.seq + 1) % 2 ^ 64
         ∧ Reports ((s.setReg pgRst off (value.toNat % 2 ^ 24)).setReg pgRst 0x050 (u.reg pgRst 0x050)) u
         ∧ (s.boot.waiting = [] → Reports u t))
   ∧ (∀ (s : State) (d : Nat), s.phase = .ready → d < 24 → bitOf (s.reg pgRst 0x048) d = true → bitOf (s.reg pgRst 0x04C) d = true →
       bitOf (s.reg pgRst 0x050) d = false → (d = 20 → s.mex.changes = []) →
       ∃ t, exec (.domainDrained d) s = .next t ∧ t.reg pgRst 0x050 = (s.reg pgRst 0x050 ||| 2 ^ d)
         ∧ bitOf (t.reg pgRst 0x010) 0 = true ∧ Reports (s.setReg pgRst 0x050 (s.reg pgRst 0x050 ||| 2 ^ d)) t)
   ∧ ∀ (s : State) (d : Nat), s.phase = .ready → d < 24 → s.boot.resetting.contains d = true →
       ∃ t u, exec (.domainReady d) s = .next t ∧ t = runWaiting u ∧ u.boot.resetting = s.boot.resetting.filter (· != d)
         ∧ bitOf (u.reg pgRst 0x058) d = true ∧ bitOf (u.reg pgRst 0x010) 1 = true
         ∧ Reports ({ s with boot := u.boot }.setReg pgRst 0x058 (u.reg pgRst 0x058)) u)
  ∧ ((∀ (s : State) (master : Nat) (value : W32), MayWrite s master pgRst 0x054 → value.toNat % 2 ^ 24 ≠ 0 →
         exec (.rstPulse master value) s
           = .next (((List.range 24).filter fun d => bitOf (value.toNat % 2 ^ 24) d).foldl (fun t d => pulseDomain master d t)
               (regRecord master pgRst 0x054 0 (value.toNat % 2 ^ 24) 0 s)))
     ∧ ∀ (s : State) (master d : Nat), d < 24 →
         let t := pulseDomain master d s
         let drained := bitOf (s.reg pgRst 0x050) d
         t.out.getLast? = some (.moduleReset d) ∧ t.boot.resetting.contains d = true ∧ bitOf (t.reg pgRst 0x058) d = false
           ∧ (drained = true → Map.find? t.boot.lostCredits d = none)
           ∧ (drained = false → bitOf (t.reg pgRst 0x010) 2 = true)
           ∧ (d = 23 → Map.keys t.sec.keys = [] ∧ t.sec.sessions = [] ∧ t.sec.owner = none))

/-! ## Doorbells, submission and completion queues -/

/-- Doorbells of a host function that pass the checks of R291: the SQ tail, the CQ head (R289), the EQ head (R294, R260) and the SRQ tail
(R292). Each moves its own index; a CQ head lets held completions be written, an EQ head lets EVENT_LOST be delivered, an SRQ tail posts
the ring's new entries.
A doorbell that is not a function's own, or whose queue is not enabled or value out of range, is counted, raises the cause and moves
nothing (R291).
Where the spec leaves it to the model, its choices are those of log entry 65. -/
def Obligations.DoorbellsRing : Prop :=
  (∀ (s : State) (master value : Nat), s.phase = .ready → master < 0x80 →
     let port := master / 0x40
     let fn := master % 0x40
     (∀ qp, qp < 4096 → s.ownsQueue port fn qp = true → s.qEnabled port qp = true → value < s.sqSize port qp →
       exec (.sqTailDoorbell master qp 0 value) s = .next (s.setQueue port qp { s.queue port qp with sqTail := value }))
     ∧ (∀ qp, qp < 4096 → s.ownsQueue port fn qp = true → s.qEnabled port qp = true →
       let q := s.queue port qp
       let n := s.cqSize port qp
       value < n → q.cqHead < n → q.cqTail < n → ringDist n q.cqHead value ≤ ringDist n q.cqHead q.cqTail → q.disabling = false →
       ∃ t, exec (.cqHeadDoorbell master qp 4 value) s = .next t ∧ (t.queue port qp).cqHead = value ∧ Reports s t
         ∧ (q.held = [] → t = s.setQueue port qp { q with cqHead := value })
         ∧ (∀ e rest, q.held = e :: rest → value ≠ q.cqHead → .completion port qp q.cqTail (cqeBytes e q.phase q.sqHead) ∈ t.out))
     ∧ (let q := s.eq port fn
       let cfg := s.reg (pgHq port 0) 0x090 fn
       let n := 2 ^ bitsOf cfg 0 4
       bitOf cfg 16 = true → value < n → ringDist n q.head value ≤ ringDist n q.head q.tail →
       ∃ t, exec (.eqHeadDoorbell master (4096 + fn) 4 value) s = .next t ∧ (t.eq port fn).head = value ∧ Reports s t
         ∧ (q.lost = 0 ∨ (q.tail + 1) % n = value → t = s.setEq port fn { q with head := value })
         ∧ (q.lost ≠ 0 → (q.tail + 1) % n ≠ value → fn = 0 → ∃ rec, .eventRecord port fn q.tail rec ∈ t.out ∧ leAt rec 2 2 = 0x0113
             ∧ leAt rec 24 8 = q.lost % 2 ^ 64))
     ∧ (∀ part q ring, part < 256 → Map.find? s.srqs part = some q → q.port = port → s.ownsSrq port fn part = true →
       let n := 2 ^ bitsOf (s.reg (pgHq port 0) 0x0AC part) 0 5
       value < n →
       exec (.srqTailDoorbell master (4160 + part) 0 value ring) s
         = .next { s with srqs := Map.insert s.srqs part { q with
             tail := value, bufs := q.bufs ++ (List.range ((value + n - q.tail) % n)).map fun k => bufferAt ring k } }))
  ∧ (∀ (s : State) (master qp value : Nat), s.phase = .ready → master < 0x80 → qp < 4096 →
       let port := master / 0x40
       (s.ownsQueue port (master % 0x40) qp = false ∨ s.qEnabled port qp = false ∨ s.sqSize port qp ≤ value) →
       ∃ t, exec (.sqTailDoorbell master qp 0 value) s = .next t ∧ t.queues = s.queues
         ∧ bitOf (t.reg (pgHq port (qp / 512)) 0x010) 3 = true ∧ Reports (s.bump (pgHq port 0) 0x0C0) t)

/-- SQ_FETCH of an enabled queue pair with an entry waiting: the head advances, HQ_SUBMIT counts it, and the entry's command runs as that
of the function that owns the queue pair (R284, R285).
Where the spec leaves it to the model, its choices are those of log entry 52. -/
def Obligations.SqFetchRuns : Prop :=
  ∀ (s : State) (port qp : Nat) (sqe data : Bytes), s.phase = .ready → s.qEnabled port qp = true → (s.queue port qp).disabling = false →
    (s.queue port qp).sqHead ≠ (s.queue port qp).sqTail →
    let q := s.queue port qp
    let e := Sqe.ofBytes sqe
    let src : Src := .host port (s.queueFn port qp) qp e.cid e.resAddr e.resLen
    let blk := slice data 0 e.len
    let u := countUp (pgHq port 0) 0x0D0 1 (s.setQueue port qp { q with sqHead := (q.sqHead + 1) % s.sqSize port qp })
    let runs (c : Instr) : Prop := ∃ t, exec (.sqFetch port qp sqe data true) s = .next t ∧ exec c u = .next t
    (∀ x ∈ [(0x01, Instr.query), (0x02, Instr.append), (0x03, Instr.seal), (0x04, Instr.fetch), (0x05, Instr.lendGrantRequest),
            (0x06, Instr.reclaim), (0x07, Instr.setPartner), (0x08, Instr.merge), (0x09, Instr.lookupSearch),
            (0x0A, Instr.insertClass), (0x0B, Instr.deleteConversation), (0x0C, Instr.abort), (0x0D, Instr.role), (0x0F, Instr.claim)],
      e.opc = x.1 → e.commandOk = true → runs (x.2 src blk))
    ∧ (e.opc = 0x20 → runs (.pftSend src sqe data)) ∧ (e.opc = 0x21 → runs (.pftWrite src sqe data))
    ∧ (e.opc = 0x22 → runs (.reg src sqe)) ∧ (e.opc = 0x23 → runs (.dereg src sqe))

/-- PFT_SEND and PFT_WRITE on an OPEN connection of the function's partition put one message on it, with the command's CID and queue
pair for its completion; a WRITE without FIN has none (R241, R251, R254, R257).
REG enters a region of the function's host memory with a new RKEY; DEREG takes one of the function's own partition away; neither
changes another region (R253, R293).
Where the spec leaves it to the model, its choices are those of log entries 23 and 64. -/
def Obligations.HostMessagesAndRegions : Prop :=
  (∀ (s : State) (port fn qp cid addr len part : Nat) (sqe data : Bytes) (c : Conn), port < 2 → s.phase = .ready →
     let e := Sqe.ofBytes sqe
     let src : Src := .host port fn qp cid addr len
     e.transportOk = true → s.fnPart port fn = some part → Map.find? s.pft.conns e.conn = some c → c.keeper = false → c.part = part →
     c.state = .opened →
     let sends (i : Instr) (write : Bool) (q : Nat) : Prop := ∃ t c' m, exec i s = .next t ∧ Map.find? t.pft.conns e.conn = some c'
       ∧ c'.nextMsg = (c.nextMsg + 1) % 2 ^ 32 ∧ c'.msgs = c.msgs ++ [m] ∧ m.msg = c.nextMsg ∧ m.isWrite = write
       ∧ m.fin = (e.fin && write) ∧ m.cid = e.cid ∧ m.port = port ∧ m.qp = q ∧ Reports s t
     (e.opc = 0x20 → sends (.pftSend src sqe data) false qp)
       ∧ (e.opc = 0x21 → sends (.pftWrite src sqe data) true (if e.fin then qp else 65535)))
  ∧ (∀ (s : State) (port fn qp cid addr len part : Nat) (sqe : Bytes), port < 2 → s.phase = .ready →
       let e := Sqe.ofBytes sqe
       let src : Src := .host port fn qp cid addr len
       e.transportOk = true → s.fnPart port fn = some part →
       (e.opc = 0x22 → 2 ≤ s.right (port * 0x40 + fn) (partTarget part) → s.queueFn port e.finQp = fn →
           Map.lowestFree s.pft.regions 1 < 65536 →
         ∃ t idx r, exec (.reg src sqe) s = .next t ∧ Map.find? t.pft.regions idx = some r ∧ r.loc = port ∧ r.base = e.addr
           ∧ r.len = e.offset ∧ r.owner = part ∧ r.fn = fn ∧ r.finQp = e.finQp ∧ r.mem = []
           ∧ (∀ k, k ≠ idx → Map.find? t.pft.regions k = Map.find? s.pft.regions k)
           ∧ Reports { s with pft := { s.pft with regions := t.pft.regions } } t)
       ∧ (∀ r, e.opc = 0x23 → s.regionOf e.rkey = some r → r.owner = part → r.loc = port →
         ∃ t, exec (.dereg src sqe) s = .next t ∧ Map.find? t.pft.regions (e.rkey / 65536) = none
           ∧ (∀ k, k ≠ e.rkey / 65536 → Map.find? t.pft.regions k = Map.find? s.pft.regions k)
           ∧ Reports { s with pft := { s.pft with regions := t.pft.regions } } t))

/-- The end of a queue pair and of its waiting (R282, R288, R289): clearing ENABLE disables it at once when nothing of it is in flight, and
else when its accepted commands have completed; completions held for 10 ms raise CQ_STALL once; and the coalescing time sends one message for
the entries that were not signalled. -/
def Obligations.QueuesEnd : Prop :=
  (∀ (s : State) (port g fn : Nat) (value : W32), port < 2 → g < 8 → fn < 0x40 →
    let master := port * 0x40 + fn
    let page := pgHq port g
    let qp := s.qSel master page
    let q := s.queue port qp
    MayWrite s master page 0x074 → s.ownsQueue port fn qp = true → s.qEnabled port qp = true → q.disabling = false →
    s.taken page 0x074 qp value.toNat = withBits (s.qCfg port qp) 23 1 0 →
    ∃ t, exec (.queueDisable master page value) s = .next t ∧ t.log.seq = (s.log.seq + 1) % 2 ^ 64 ∧ Reports s t
      ∧ (q.inflight = [] → q.held = [] → t.qEnabled port qp = false)
      ∧ ((q.inflight ≠ [] ∨ q.held ≠ []) → t.qEnabled port qp = true ∧ t.queue port qp = { q with disabling := true }))
  ∧ (∀ (s : State) (port qp : Nat), port < 2 → qp < 4096 → s.phase = .ready →
    let q := s.queue port qp
    q.held ≠ [] → q.stalled = false → q.heldSince + 10000000 ≤ s.time →
    ∃ t, exec (.cqStall port qp) s = .next t ∧ t.queue port qp = { q with stalled := true }
      ∧ bitOf (t.reg (pgHq port (qp / 512)) 0x010) 2 = true ∧ Reports (s.bump (pgHq port 0) 0x0C4) t)
  ∧ ∀ (s : State) (port qp : Nat), s.phase = .ready →
    let q := s.queue port qp
    let us := bitsOf (s.reg (pgHq port 0) 0x07C qp) 8 16
    us ≠ 0 → bitOf (s.qCfg port qp) 22 = true → q.unsignalled ≠ 0 → q.firstUnsignalled + 1000 * us ≤ s.time →
    exec (.coalesceTimerExpiry port qp) s
      = .next ((s.setQueue port qp { q with unsignalled := 0 }).send (.msix port (s.queueFn port qp) (bitsOf (s.qCfg port qp) 16 6)))

/-! ## The primary and the host ports -/

/-- The primary (R297 to R299): a heartbeat is noted, and one to the primary's HQ_HB clears PEER_LOST; a primary whose link has been down for 100 ms,
or that has been silent for MISSES × INTERVAL_MS with HB_EN, is lost; HANDOVER makes the other port primary while its link is up, and CLAIM the claiming
port once the primary is lost, which clears PEER_LOST. Nothing else changes.
Where the spec leaves it to the model, its choices are those of log entries 57 and 60. -/
def Obligations.PrimaryMoves : Prop :=
  (∀ (s : State) (port g fn : Nat) (value : W32), port < 2 → g < 8 → fn < 0x40 → MayWrite s (port * 0x40 + fn) (pgHq port g) 0x044 →
    ∃ t, exec (.heartbeat (port * 0x40 + fn) (pgHq port g) value) s = .next t ∧ (t.port port).lastHb = s.time
      ∧ t.reg (pgHq port 0) 0x044 = value.toNat ∧ t.peerLost = (if port = s.primary then [] else s.peerLost) ∧ t.log = s.log
      ∧ (∀ k, k ≠ port → t.port k = s.port k)
      ∧ Reports ({ s with ports := t.ports, peerLost := t.peerLost }.setReg (pgHq port 0) 0x044 value.toNat) t)
  ∧ (∀ s : State, s.phase = .ready → s.primary < 2 → s.peerLost.contains (1 - s.primary) = false →
    let x := s.port s.primary
    let cfg := s.reg (pgHq 0 0) 0x048
    ((x.linkUp = false ∧ x.downSince + 100000000 ≤ s.time)
      ∨ (bitOf cfg 14 = true ∧ x.lastHb + bitsOf cfg 10 4 * bitsOf cfg 0 10 * 1000000 ≤ s.time)) →
    ∃ t, exec .primaryLossCheck s = .next t ∧ t.peerLost = (1 - s.primary) :: s.peerLost ∧ bitOf (t.reg (pgHq (1 - s.primary) 0) 0x010) 0 = true
      ∧ Reports { s with peerLost := (1 - s.primary) :: s.peerLost } t)
  ∧ (∀ (s : State) (g : Nat) (value : W32), s.primary < 2 → g < 8 →
    MayWrite s (s.primary * 0x40) (pgHq s.primary g) 0x040 → bitOf value.toNat 2 = true → (s.port (1 - s.primary)).linkUp = true →
    ∃ t, exec (.handover (s.primary * 0x40) (pgHq s.primary g) value) s = .next t ∧ t.primary = 1 - s.primary ∧ t.peerLost = s.peerLost
      ∧ t.log.seq = (s.log.seq + 2) % 2 ^ 64 ∧ (∀ p k, p < 2 → k < 8 → bitOf (t.reg (pgHq p k) 0x010) 1 = true)
      ∧ Reports { s with primary := 1 - s.primary } t)
  ∧ (∀ (s : State) (g : Nat) (value : W32), s.primary < 2 → g < 8 →
    MayWrite s (s.primary * 0x40) (pgHq s.primary g) 0x040 → (s.port (1 - s.primary)).linkUp = false →
    exec (.handover (s.primary * 0x40) (pgHq s.primary g) value) s = .next s)
  ∧ ∀ (s : State) (port qp cid addr len : Nat) (blk : Bytes), port < 2 → Takes s 0x0F → blk.length = 64 → zerosAt blk 8 56 = true →
    port ≠ s.primary → s.peerLost.contains port = true →
    ∃ t, exec (.claim (.host port 0 qp cid addr len) blk) s = .next t ∧ t.primary = port ∧ t.peerLost = []
      ∧ t.done.head? = some (leAt blk 0 8, port * 0x40, 0x00) ∧ t.log.seq = (s.log.seq + 1) % 2 ^ 64
      ∧ Reports { s with primary := port, peerLost := [] } t

/-- The host ports (R277, R295): PERST and the loss of a link take the link down and note when, and every function of the port loses its
commands, queues and regions (`losePort`); a link that trains notes its rate; after PERST
a port becomes ready within 100 ms; a configuration request is retried until then, and answered with the function's identity from then
on (Table 12-1).
A Function Level Reset leaves the function no mailbox claim, no registered region, no shared receive queue that it configured and no
event queue (R295, R313).
Where the spec leaves it to the model, its choices are those of log entries 50, 62 and 63. -/
def Obligations.HostPortsAndFunctions : Prop :=
  (∀ (s : State) (port fn : Nat), s.phase = .ready →
     let x := s.port port
     (x.perst = false → fn < 64 →
         (s.time < x.readyAt → exec (.configurationRequest port fn) s = .next (s.send (.config port fn none)))
         ∧ (x.readyAt ≤ s.time → exec (.configurationRequest port fn) s = .next (s.send (.config port fn (some
             [(if fn = 0 then 0x4820 else 0x4821) * 2 ^ 16 + 0x1F82, 0x12 * 2 ^ 24 + (if s.fuses.stepA1 then 1 else 0),
              (if s.fuses.liquid then 2 else 1) * 2 ^ 16 + 0x1F82])))))
     ∧ (x.perst = true → ∃ t, exec (.perstDeassert port) s = .next t ∧ (t.port port).perst = false ∧ s.time ≤ (t.port port).readyAt
         ∧ (t.port port).readyAt ≤ s.time + 100000000 ∧ (∀ k, k ≠ port → t.port k = s.port k) ∧ Reports { s with ports := t.ports } t)
     ∧ (∀ speed width, x.linkUp = false → x.perst = false →
         ∃ t, exec (.hostLinkUp port speed width) s = .next t
           ∧ t.port port = { x with linkUp := true, speed := speed % 8, width := width % 32 }
           ∧ (∀ k, k ≠ port → t.port k = s.port k) ∧ Reports { s with ports := t.ports } t)
     ∧ (x.linkUp = true → ∃ t u, exec (.hostLinkDown port) s = .next t ∧ t = losePort port u
         ∧ u.port port = { x with linkUp := false, speed := 0, width := 0, downSince := s.time }
         ∧ (∀ k, k ≠ port → u.port k = s.port k) ∧ Reports { s with ports := u.ports } u)
     ∧ (x.perst = false → ∃ t u, exec (.perstAssert port) s = .next t ∧ t = losePort port u
         ∧ (u.port port).perst = true ∧ (u.port port).linkUp = false
         ∧ (∀ k, k ≠ port → u.port k = s.port k) ∧ Reports { s with ports := u.ports } u))
  ∧ (∀ (s : State) (port fn : Nat), s.phase = .ready →
       ∃ t, exec (.functionLevelReset port fn) s = .next t ∧ t.sec.owner ≠ some (port * 0x40 + fn)
         ∧ (∀ r ∈ t.pft.regions, ¬(r.2.loc = port ∧ r.2.fn = fn)) ∧ Map.find? t.eqs (eqKey port fn) = none
         ∧ (∀ q ∈ t.srqs, ¬(q.2.port = port ∧ q.2.fn = fn)))

/-! ## Mirroring, handover and roles -/

/-- MIRROR commands that pass their checks (R344, R350, R351): SET_PARTNER names the partner and puts the partition's RETAINED streams into
RESYNCING; STATUS answers the stream's Buoy, NEXT and state and changes nothing; PROMOTE of a copy whose primary is out of reach makes it the
primary; with FORCE and the primary in reach it starts a handover of 10 ms; RELEASE lets every copy that it names go, and is ABSENT for a
conversation that the node does not hold.
Where the spec leaves it to the model, its choices are those of log entries 76, 78 and 156. -/
def Obligations.MirrorCommands : Prop :=
  ∀ (s : State) (src : Src) (blk : Bytes), Takes s 0x07 → Src.portOk src = true → MirrorBlk.check1 blk = true →
    let m := MirrorBlk.ofBlock blk
    let master := s.masterOf src
    let part := (s.srcPart src).getD m.part
    let passes := ∃ a, s.compCheck m.comp m.epoch none false = .pass a
    let passesConv := ∃ a, s.compCheck m.comp m.epoch (some m.conv) (s.heldConv m.conv).isSome = .pass a
    (m.form = 0 → 3 ≤ s.right master pgRes → passes → s.partActive part = true → s.partnerOk m.node = true →
        (s.part? part).bind (·.partner) ≠ some m.node →
      ∃ t p, exec (.setPartner src blk) s = .next t ∧ t.part? part = some p ∧ p.partner = some m.node
        ∧ (∀ k ∈ s.retainedStreams part, ∃ x, t.stream? k.1 k.2 = some x ∧ x.mstate = 1)
        ∧ t.done.head? = some (m.id, master, 0x00) ∧ Reports { s with parts := t.parts, streams := t.streams } t)
    ∧ (∀ q c x, m.form = 1 → s.authorise src (hTenant m.conv) 1 = some q → passesConv → s.heldConv m.conv = some c →
        s.outside c m.layer = false → s.stream? m.conv m.layer = some x →
      ∃ t, exec (.mirrorStatus src blk) s = .next t ∧ t.done.head? = some (m.id, master, 0x00) ∧ Reports s t
        ∧ ∀ port fn qp cid addr len, src = .host port fn qp cid addr len → 32 ≤ len →
            .result port addr (mirrorResult m.id 0 x.buoy x.next x.mstate) ∈ t.out)
    ∧ (∀ q c node, m.form = 2 → s.authorise src (hTenant m.conv) 2 = some q → passesConv → s.heldConv m.conv = some c →
        c.primaryNode = some node →
      (s.keeperConn node = none → ∃ t c', exec (.promote src blk) s = .next t ∧ Map.find? t.convs m.conv = some c'
          ∧ c'.primaryNode = none ∧ c'.part = c.part ∧ t.done.head? = some (m.id, master, 0x00)
          ∧ Reports { s with convs := t.convs, pages := t.pages, streams := t.streams, sec := (writeMeta c.part 1 m.conv s).sec } t)
        ∧ ((s.keeperConn node).isSome = true → m.force = true → s.entryFree (some q) = true → s.duplicate master m.id = false →
          ∃ t r, exec (.promote src blk) s = .next t ∧ Map.find? t.reqs s.nextReq = some r ∧ r.kind = .promote ∧ r.conv = m.conv
            ∧ r.status = none ∧ r.deadline = some (s.time + 10000000) ∧ t.convs = s.convs))
    ∧ (m.form = 3 → 3 ≤ s.right master pgRes → passes → s.partActive part = true → s.keeperConn m.node = none →
      ((m.conv = 0 ∨ ∃ c, Map.find? s.convs m.conv = some c ∧ c.primaryNode = some m.node ∧ c.part = part ∧ c.deleting = false) →
        ∃ t, exec (.mirrorRelease src blk) s = .next t ∧ t.done.head? = some (m.id, master, 0x00)
          ∧ ∀ h c, Map.find? t.convs h = some c → c.primaryNode = some m.node → c.part = part → (m.conv = 0 ∨ h = m.conv) → c.deleting = true)
      ∧ (m.conv ≠ 0 → Map.find? s.convs m.conv = none →
        ∃ t, exec (.mirrorRelease src blk) s = .next t ∧ t.done.head? = some (m.id, master, 0x01) ∧ Reports s t))

/-- The steps of a handover (R365, R364): the freeze holds new requests of the conversation for the peer; the answer makes the copy the
primary and commits the PROMOTE; the commit leaves a stub that names the new primary, lets the conversation go and forwards the held requests; a freeze that no commit follows within 10 ms ends, and the
held requests run here.
The mirror engine (R345, R349, R351): the close of a batch leaves the stream without an open one and its other numbers but BATCH as they
were; a RESYNCING stream with a partner in reach is sent to its end, by a resync and by a retry alike, and becomes RESYNCED once its Buoy is at its
end. Both only send: what they send is noted at its region's arbiter, crosses its die's link and is counted there (log entry 151).
Where the spec leaves it to the model, its choices are those of log entries 27, 28, 40, 79, 151 and 156. -/
def Obligations.MirrorStreamsMove : Prop :=
  ((∀ (s : State) (peer conv : Nat) (c : Conv), s.phase = .ready → s.heldConv conv = some c → c.primaryNode = none → c.freezer = none →
       (s.part? c.part).bind (·.partner) = some peer →
       ∃ t c', exec (.handoverFreeze peer conv) s = .next t ∧ Map.find? t.convs conv = some c' ∧ c'.freezer = some peer
         ∧ c'.frozenAt = s.time ∧ c'.part = c.part ∧ t.frozen conv = true)
   ∧ (∀ (s : State) (req : Nat) (r : Req) (c : Conv), s.phase = .ready → s.handover? req = some r → Map.find? s.convs r.conv = some c →
       Src.portOk r.src = true →
       ∃ t, exec (.handoverAnswer req) s = .next t ∧ (r.id, r.master, 0x00) ∈ t.done
         ∧ ∀ c', Map.find? t.convs r.conv = some c' → c'.primaryNode = none)
   ∧ (∀ (s : State) (conv node : Nat) (c : Conv), s.phase = .ready → Map.find? s.convs conv = some c → c.freezer = some node →
       c.answered = true → s.field pgCmp 0x048 0 10 ≠ 0 →
       ∃ t u, exec (.handoverCommit conv) s = .next t ∧ t = sweep (c.held.foldl (fun t i => forwardNow node i t) u)
         ∧ (∃ x ∈ u.cmp.stubs, x.conv = conv ∧ x.node = node ∧ x.at_ = s.time)
         ∧ Map.find? u.convs conv = some { c with deleting := true, freezer := none, held := [] }
         ∧ Reports { s with convs := u.convs, pages := u.pages, cmp := u.cmp } u)
   ∧ (∀ (s : State) (req conv : Nat) (c : Conv), s.phase = .ready → s.handover? req = none → Map.find? s.convs conv = some c →
       c.freezer.isSome = true → c.answered = false → c.frozenAt + 10000000 ≤ s.time →
       exec (.handoverTimeout req conv) s
         = .next (c.held.foldl (fun t i => resumeHeld i t)
             { s with convs := Map.insert s.convs conv { c with freezer := none, held := [] } }))
   ∧ ∀ (s : State) (conv : Nat), s.phase = .ready →
       ∃ t, exec (.stubExpiry conv) s = .next t ∧ { t with cmp := s.cmp } = s
         ∧ ∀ x, x ∈ t.cmp.stubs ↔ x ∈ s.cmp.stubs ∧ ¬(x.conv = conv ∧ x.at_ + 1000000 * s.field pgCmp 0x048 0 10 ≤ s.time))
  ∧ (∀ (s : State) (conv layer : Nat) (st : Stream), s.phase = .ready → s.quiet 22 = false → layer < 256 → s.stream? conv layer = some st →
       (∀ f, st.mstate = 2 → st.batchFrom = some f →
         ∃ t x, exec (.mirrorBatchClose conv layer) s = .next t ∧ t.stream? conv layer = some x
           ∧ x = { st with batchFrom := none, batch := x.batch } ∧ st.batch ≤ x.batch
           ∧ Reports { s with streams := t.streams, regions := t.regions, links := t.links, cnt := t.cnt } t
           ∧ (∀ r, { t.region r with arb := (s.region r).arb } = s.region r))
       ∧ ∀ c, st.mstate = 1 → Map.find? s.convs conv = some c → (s.partnerConn c.part).isSome = true →
         ∀ i ∈ [Instr.mirrorResync conv layer, Instr.mirrorRetry conv layer],
         ∃ t x, exec i s = .next t ∧ t.stream? conv layer = some x ∧ x.buoy = st.buoy ∧ st.sent ≤ x.sent
           ∧ (∀ e ∈ s.entriesBeyond conv layer st.sent, ∀ h p, s.pageAt conv layer e = some (h, p) → p.covers e ≤ x.sent)
           ∧ (x.mstate = 2 ↔ s.entriesBeyond conv layer st.buoy = [])
           ∧ Reports { s with streams := t.streams, regions := t.regions, links := t.links, cnt := t.cnt } t
           ∧ (∀ r, { t.region r with arb := (s.region r).arb } = s.region r))

/-- ROLE starts a role change that shows the new role and CHANGING (R357, steps 1 and 2 of Table 15-2) and is one COMMAND record; after GRACE_MS
the grants whose pages have no place are dropped; the finish cuts off the MERGEs of step 5, shows the new role alone, and completes the command.
Where the spec leaves it to the model, its choices are those of log entries 57 and 80. -/
def Obligations.RoleChanges : Prop :=
  (∀ (s : State) (port fn qp cid addr len : Nat) (blk : Bytes), port < 2 → Takes s 0x0D →
      let src : Src := .host port fn qp cid addr len
      let new := bitsOf (byteAt blk 8) 0 2
      roleCheck blk = true → s.secondary src = false → 3 ≤ s.right (port * 0x40 + fn) pgCmp → s.cmp.change = none → new ≠ s.role →
      ∃ t c, exec (.role src blk) s = .next t ∧ t.cmp.change = some c ∧ c.old = s.role ∧ c.new = new ∧ c.start = s.time
        ∧ c.graceMs = (if byteAt blk 9 = 0 then 4 else byteAt blk 9) ∧ c.reclaims = (lends s.role && !lends new)
        ∧ t.reg pgCmp 0x040 = new + 4 + 16 * new ∧ t.log.seq = (s.log.seq + 1) % 2 ^ 64 ∧ t.parts = s.parts ∧ t.pages = s.pages)
  ∧ (∀ (s : State) (c : RoleChange), s.phase = .ready → s.cmp.change = some c → c.reclaims = true → c.start + 1000000 * c.graceMs ≤ s.time →
      ∃ t, exec .roleGraceExpiry s = .next t ∧ t.cmp.change = some { c with reclaims := false }
        ∧ ∀ g x, Map.find? t.tier.grantsOut g = some x → x.noPlace = false)
  ∧ ∀ (s : State) (c : RoleChange), s.phase = .ready → s.cmp.change = some c → c.reclaims = false →
      ∃ t u, exec .roleChangeFinish s = .next t ∧ t = commitPlain c.req .ok u ∧ u.cmp.change = none
        ∧ u.reg pgCmp 0x040 = c.new % 2 ^ 32 ∧ bitOf (u.reg pgCmp 0x010) 0 = true
        ∧ Reports ({ c.merges.foldl (fun t i => cutMerge i t) s with cmp := u.cmp }.setReg pgCmp 0x040 c.new) u

/-! ## Flash -/

/-- FORMAT starts on an OFFLINE tier at rest and OFFLINE ends one that holds nothing, each with one record; a format that completes leaves
every block that is not bad erased but the map blocks it has written, the map and the journal empty and the tier ONLINE, and retires what
was to be retired (R230 to R232, R217).
Mounts (R229, R230, Table 9-4): a cold mount that succeeds loads the segment directory as the durable journal has it, releases every
logical unit, brings the recorded state back and retires what was to be retired, one that fails leaves the tier OFFLINE; a warm mount that
succeeds keeps every mapping and drops a relocation whose records are not durable; one that fails takes the tier OFFLINE.
Where the spec leaves it to the model, its choices are those of log entries 7, 88 and 143. -/
def Obligations.FlashComesAndGoes : Prop :=
  ((∀ (s : State) (master : Nat), MayWrite s master pgFlm 0x058 → s.flash.mounting = false → s.flash.formatting = false →
     (3 ≤ s.right master pgFlm → s.flash.st = 0 →
       let u := s.setFlash { s.flash with formatting := true, formatted := false }
       ∃ t, exec (.format master) s = .next t ∧ t.flash = u.flash ∧ t.log.seq = (s.log.seq + 1) % 2 ^ 64 ∧ Reports u t)
     ∧ (s.nandHeld = false →
       let u := s.setFlash { s.flash with st := 0, map := [], placed := [], pack := [], queuedUnits := [], moves := [] }
       ∃ t, exec (.flashOffline master) s = .next t ∧ t.flash = u.flash
         ∧ t.reg pgFlm 0x058 = 0 ∧ t.log.seq = (s.log.seq + 1) % 2 ^ 64 ∧ Reports (u.setReg pgFlm 0x058 0) t))
   ∧ ∀ (s : State) (bad : List Nat), s.phase = .ready → s.flash.formatting = true →
       ∃ t, exec (.formatComplete bad) s = .next t ∧ t.flash.st = 1 ∧ t.flash.formatted = true ∧ t.flash.formatting = false
         ∧ t.flash.map = [] ∧ t.flash.jdurable = [] ∧ t.flash.jpending = [] ∧ t.flash.reserveUsed = [] ∧ t.flash.moves = []
         ∧ t.flash.erases0 = s.flash.erases0 + 1 ∧ t.flash.opPct = s.field pgFlm 0x054 0 5
         ∧ (∀ b, (t.flash.block b).bad = (bad.contains b || (s.flash.block b).bad || (s.flash.block b).retire))
         ∧ (∀ b, (t.flash.block b).isMap = false → (t.flash.block b).free = true ∧ (t.flash.block b).valid = 0 ∧ (t.flash.block b).next = 0)
         ∧ (∀ b, (t.flash.block b).isMap = true → (t.flash.block b).bad = false ∧ (t.flash.block b).valid = (t.flash.block b).next)
         ∧ t.reg pgFlm 0x058 = 0 ∧ bitOf (t.reg pgFlm 0x010) 2 = true
         ∧ Reports (({ s with flash := t.flash, cnt := t.cnt }.bump pgFlm 0x0B8 s.flash.misses).setReg pgFlm 0x058 0) t)
  ∧ (∀ s : State, s.phase = .ready → s.flash.mounting = true →
       (∀ failed, s.flash.st = 0 →
         (∃ t, exec (.coldMountComplete true failed) s = .next t ∧ t.flash.map = [] ∧ t.flash.placed = [] ∧ t.flash.mounting = false
           ∧ t.flash.moves = [] ∧ t.flash.segDir = s.flash.segDurable ∧ t.flash.closed = false
           ∧ (s.flash.closed = true → (∀ kv ∈ s.flash.blocks, kv.2.retire = false) → t.flash.st = (if s.flash.worn then 2 else 1))
           ∧ (∀ b, (s.flash.block b).retire = true → (t.flash.block b).bad = true)
           ∧ (s.flash.closed = false → bitOf (t.reg pgFlm 0x010) 7 = true) ∧ bitOf (t.reg pgFlm 0x010) 0 = true)
         ∧ (let u := s.setFlash { s.flash with mounting := false }
           ∃ t, exec (.coldMountComplete false failed) s = .next t ∧ t.flash = u.flash ∧ bitOf (t.reg pgFlm 0x010) 1 = true ∧ Reports u t))
       ∧ (s.flash.st ≠ 0 → s.undurable = [] → (∀ m ∈ s.flash.moves, s.flash.moveDurable m.2 = false) →
           (∀ r ∈ s.flash.jpending, r.kind ≠ .erase) →
         ∃ t, exec (.warmMountComplete true) s = .next t ∧ t.flash.mounting = false ∧ t.flash.st = s.flash.st ∧ t.flash.map = s.flash.map
           ∧ t.flash.placed = s.flash.placed ∧ t.flash.moves = [] ∧ t.flash.blocks = s.flash.blocks
           ∧ (s.flash.moves = [] → t.flash.jpending = s.flash.jpending)
           ∧ bitOf (t.reg pgFlm 0x010) 0 = true ∧ Reports ({ s with flash := t.flash }.bump pgFlm 0x0B8 s.flash.misses) t)
       ∧ (s.flash.st ≠ 0 →
         ∃ t, exec (.warmMountComplete false) s = .next t ∧ t.flash.st = 0 ∧ t.flash.map = [] ∧ t.flash.placed = [] ∧ t.flash.moves = []))

/-- Reads (R210 to R213): a codeword of a mapped unit whose normal read has up to 64 bit errors decodes; it counts one read of its block,
queues the block for refresh at a limit, and counts 4,096 bytes read. With more, it queues the block and is either corrected by a later
stage or uncorrectable, which soft-decision decoding can prevent; an uncorrectable codeword raises UNCORRECTABLE and leaves its block
retired or to be retired.
The journal and the map (R217, R219, R220): a commit makes every pending record durable in order, and at 16,384 records since the last
CKPT it ends in one; a dirty segment that is written back goes to the next page of a map block, is dirty no more, and its place is
journalled.
Where the spec leaves it to the model, its choices are those of log entries 50, 86 and 144. -/
def Obligations.FlashReadsAndJournal : Prop :=
  ((∀ (s : State) (unit cw first : Nat) (later : List Nat) (soft : Bool) (e : MapEnt), s.phase = .ready → s.quiet 19 = false → cw < 4 →
     s.flash.serving = true → Map.find? s.flash.map unit = some e →
     let counted (u : State) (refresh : Bool) : Prop :=
       u.flash.block e.block = { s.flash.block e.block with reads := (s.flash.block e.block).reads + 1, refresh }
         ∧ (∀ b, b ≠ e.block → u.flash.block b = s.flash.block b) ∧ u.flash.map = s.flash.map
         ∧ u.cnt64 pgFlm 0x088 = sat64 (s.cnt64 pgFlm 0x088) 4096
     (first ≤ 64 → ∃ t k, exec (.flashRead unit cw first later soft) s = .next t
         ∧ counted t ((s.flash.block e.block).refresh || decide (s.field pgFlm 0x06C 0 7 < first
               ∨ s.reg pgFlm 0x070 ≤ (s.flash.block e.block).reads + 1))
         ∧ k ≤ s.flash.misses + 1 ∧ Reports ({ s with flash := t.flash, cnt := t.cnt }.bump pgFlm 0x0B8 k) t)
     ∧ (64 < first → ∃ t u, exec (.flashRead unit cw first later soft) s = .next t
         ∧ (t = u ∨ (soft = false ∧ t = uncorrectable unit cw e.block u))
         ∧ (counted u true ∨ ∃ refresh, counted u refresh ∧ hardDecodes s.fresh first = true)
         ∧ Reports { s with flash := u.flash, cnt := u.cnt, regs := u.regs } u))
   ∧ ∀ (s : State) (unit cw b : Nat), s.pages = [] →
       bitOf ((uncorrectable unit cw b s).reg pgFlm 0x010) 5 = true
         ∧ (((uncorrectable unit cw b s).flash.block b).retire = true ∨ ((uncorrectable unit cw b s).flash.block b).bad = true))
  ∧ (∀ s : State, s.phase = .ready → s.quiet 19 = false → s.flash.serving = true →
       (s.flash.jpending ≠ [] →
         ∃ t, exec .journalCommit s = .next t ∧ t = s.setFlash s.flash.commit ∧ t.flash.jpending = [] ∧ t.flash.map = s.flash.map
           ∧ t.flash.segDurable = s.flash.segDir
           ∧ (s.flash.jseq - s.flash.ckptAt < 16384 → t.flash.jdurable = s.flash.jdurable ++ s.flash.jpending)
           ∧ (16384 ≤ s.flash.jseq - s.flash.ckptAt → ∃ r, t.flash.jdurable.getLast? = some r ∧ r.kind = .ckpt
               ∧ ∀ kv ∈ s.flash.segDirty, r.a ≤ kv.2))
       ∧ ∀ seg, Map.has s.flash.segDirty seg = true →
         (∀ x, s.flash.program (seg % 16) true seg = some x →
           ∃ t, exec (.mapSegmentWriteback seg) s = .next t ∧ Map.find? t.flash.segDirty seg = none
             ∧ (∀ k, k ≠ seg → Map.find? t.flash.segDirty k = Map.find? s.flash.segDirty k)
             ∧ Map.find? t.flash.segDir seg = some x.1 ∧ (∀ k, k ≠ seg → Map.find? t.flash.segDir k = Map.find? s.flash.segDir k)
             ∧ (t.flash.jpending.getLast?).map (fun r => (r.kind, r.a, r.b)) = some (.seg, seg, x.1)
             ∧ t.flash.map = s.flash.map ∧ Reports ({ s with flash := t.flash }.bump pgFlm 0x0B8 s.flash.misses) t)
         ∧ (s.flash.program (seg % 16) true seg = none → exec (.mapSegmentWriteback seg) s = .next (s.setFlash s.flash)))

/-- Collection, refresh and wear levelling (R213, R222 to R226) copy a block's units first, which changes no mapping, and count the bytes
they program; once the copies' records are durable, and not before, the mapping changes and the block waits for its erase. An erase, which
waits for the reads that hold a mapping into the block, leaves it with one erase more, free, with nothing valid and no page programmed.
Where the spec leaves it to the model, its choices are those of log entries 25, 87 and 144. -/
def Obligations.FlashBlocksMove : Prop :=
  ∀ s : State, s.phase = .ready → s.quiet 19 = false → s.flash.serving = true →
    let rep (t : State) : Prop := Reports ({ s with flash := t.flash, cnt := t.cnt }.bump pgFlm 0x0B8 s.flash.misses) t
    let copies (i : Instr) (b : Nat) : Prop := ∃ t m, exec i s = .next t ∧ Map.find? t.flash.moves (blockChannel b) = some m ∧ m.block = b
      ∧ m.copied.map (·.1) = s.flash.unitsIn b ∧ t.flash.map = s.flash.map
      ∧ (∀ x ∈ m.copied, ∃ r ∈ t.flash.jpending, r.kind = .map ∧ r.a = x.1 ∧ r.b = x.2)
      ∧ t.cnt64 pgFlm 0x098 = sat64 (s.cnt64 pgFlm 0x098) ((s.flash.unitsIn b).length * 16384) ∧ rep t
    let room (b o : Nat) : Prop := o ≠ b ∧ s.flash.unitsIn b ≠ [] ∧ (s.flash.block o).next + (s.flash.unitsIn b).length ≤ s.flash.pagesPerBlock
    (∀ ch b o, blockChannel b = ch → Map.has s.flash.moves ch = false → s.flash.channelFree ch < s.field pgFlm 0x064 8 8 →
        (s.flash.collecting.contains ch = true ∨ s.flash.channelFree ch < s.field pgFlm 0x064 0 8) → s.flash.victim ch = some b →
        s.flash.openBlock ch false = some o → room b o → copies (.garbageCollection ⟨ch, []⟩) b)
    ∧ (∀ b o, Map.has s.flash.moves (blockChannel b) = false → (s.flash.block b).refresh = true → (s.flash.block b).bad = false →
        (s.flash.block b).free = false → (s.flash.block b).erasing = false → (s.flash.block b).isMap = false → s.flash.unsettled b = false →
        s.flash.openBlock (blockChannel b) false = some o → room b o → copies (.refresh ⟨b, []⟩) b)
    ∧ (∀ ch x y, let span := s.flash.eraseSpan (fun b => blockChannel b == ch) (s.flash.ces * s.flash.targetBlocks)
        blockChannel x = ch → Map.has s.flash.moves ch = false → s.field pgFlm 0x05C 0 11 < span.2 - span.1 → s.flash.wearPair ch = some (x, y) →
        room x y → copies (.wearLevel ⟨ch, []⟩) x)
    ∧ (∀ (m : Move) (bad : List (Nat × Nat)), let ch := blockChannel m.block
        Map.find? s.flash.moves ch = some m →
        ∀ i ∈ [Instr.garbageCollection ⟨ch, bad⟩, Instr.refresh ⟨m.block, bad⟩, Instr.wearLevel ⟨ch, bad⟩],
          (s.flash.moveDurable m = false → exec i s = .next s)
          ∧ (∀ u pun e, s.flash.moveDurable m = true → m.copied = [(u, pun)] → Map.find? s.flash.map u = some e → e.block = m.block →
              (s.flash.block m.block).retire = false →
              ∃ t, exec i s = .next t ∧ Map.find? t.flash.moves ch = none
                ∧ Map.find? t.flash.map u = some { e with pun, block := blockOfPun s.flash pun }
                ∧ (∀ k, k ≠ u → Map.find? t.flash.map k = Map.find? s.flash.map k)
                ∧ (t.flash.block m.block).erasing = true ∧ (t.flash.block m.block).refresh = false))
    ∧ (∀ b, (s.flash.block b).erasing = true → s.flash.unitsIn b = [] →
        (s.stillRead b = true → exec (.blockErase b) s = .next s)
        ∧ (s.stillRead b = false →
          ∃ t, exec (.blockErase b) s = .next t ∧ (∀ k, k ≠ b → t.flash.block k = s.flash.block k) ∧ t.flash.map = s.flash.map
            ∧ t.flash.block b = { s.flash.block b with
                erases := (s.flash.block b).erases + 1, reads := 0, next := 0, valid := 0, free := true, erasing := false, refresh := false,
                isMap := false, readers := [], movers := [] }
            ∧ t.cnt64 pgFlm 0x0A0 = sat64 (s.cnt64 pgFlm 0x0A0) 1 ∧ rep t))
    ∧ ∀ target, target < 128 → target % 8 < s.flash.ces → (∀ k, Map.find? s.flash.calibrated target = some k → k + 100000000 ≤ s.time) →
        exec (.zqCalibration target) s
          = .next (s.setFlash { s.flash with calibrated := Map.insert s.flash.calibrated target s.time })

/-! ## Ports and traffic -/

/-- Ethernet links (R236, R238, R386): a link that goes down counts and raises LINK_DOWN, one that trains comes up; a port of four lanes or more
that may degrade runs on with the half of its lanes without the failed one, any other port goes down; without the 156.25 MHz reference every
port goes down; clearing ENABLE takes the port down.
Frames that are not PFT packets (R237, R239, R262): a solicitation of the node's own address queues an Advertisement; an Advertisement of
a node that the port sends to resolves its next hop; an Echo Request to the node queues a Reply that fits the largest frame; oversize
frames and others that are not the node's are counted and dropped.
Where the spec leaves it to the model, its choices are those of log entries 90, 145 and 147. -/
def Obligations.EthernetPorts : Prop :=
  (∀ (s : State) (port : Nat), s.phase = .ready → port < 8 →
     let page := pgEth port
     (s.portUp port = true → ∃ t, exec (.linkDown port) s = .next t ∧ t.portUp port = false ∧ (∀ k, k ≠ port → t.portUp k = s.portUp k)
         ∧ bitOf (t.reg page 0x010) 0 = true
         ∧ Reports ({ s with pft := { s.pft with down := t.pft.down } }.bump page 0x08C) t)
     ∧ (port < s.pft.ports → s.portUp port = false → s.pins.ref156 = true → s.field page 0x044 0 1 = 1 →
         ∃ t, exec (.linkUp port) s = .next t ∧ t.portUp port = true ∧ (∀ k, k ≠ port → t.portUp k = s.portUp k)
         ∧ bitOf (t.reg page 0x010) 1 = true ∧ Reports { s with pft := { s.pft with down := t.pft.down } } t)
     ∧ (∀ lane, s.portUp port = true → bitOf (s.portLanes port) lane = true → lane < 16 →
         let h := halves (s.portLanes port) (lanesIn (s.portLanes port))
         (s.field page 0x044 2 1 = 1 → 4 ≤ lanesIn (s.portLanes port) →
           ∃ t, exec (.laneFailure port lane) s = .next t ∧ t.portUp port = true
             ∧ Map.find? t.pft.degraded port = some (if bitOf h.1 lane then h.2 else h.1) ∧ bitOf (t.reg page 0x010) 2 = true
             ∧ Reports { s with pft := { s.pft with degraded := t.pft.degraded } } t)
         ∧ ((s.field page 0x044 2 1 ≠ 1 ∨ lanesIn (s.portLanes port) < 4) →
           ∃ t, exec (.laneFailure port lane) s = .next t ∧ t.portUp port = false ∧ bitOf (t.reg page 0x010) 0 = true))
     ∧ (∃ t, exec .ref156Lost s = .next t ∧ t.pins.ref156 = false ∧ ∀ k, t.portUp k = false)
     ∧ exec .ref156Return s = .next { s with pins := { s.pins with ref156 := true } }
     ∧ (∀ (master : Nat) (value : W32), MayWrite s master page 0x044 → s.portUp port = true → bitOf (s.reg page 0x044) 0 = true →
         bitOf (s.taken page 0x044 0 value.toNat) 0 = false →
         ∃ t, exec (.ethCtrlEnable master port value) s = .next t ∧ t.portUp port = false
           ∧ t.reg page 0x044 = s.taken page 0x044 0 value.toNat % 2 ^ 32 ∧ t.log.seq = (s.log.seq + 1) % 2 ^ 64))
  ∧ (∀ (s : State) (port : Nat), s.phase = .ready → port < 8 → s.portUp port = true →
       (∀ target src, (target = s.pftAddr ∨ target = s.linkLocal) →
         ∃ t f, exec (.neighborSolicitation port ⟨target, src⟩) s = .next t ∧ f.what = 2 ∧ f.payload = target ∧ f.addr = src ∧ f.entity = none
           ∧ f.len = s.ipFrame port 32 ∧ (Map.getD t.tc.queues (port * 8 + s.classOf 7) []).getLast? = some f
           ∧ Reports { s with cnt := t.cnt } t)
       ∧ (∀ target mac node, s.reg (pgEth port) 0x050 = 0 → s.reg (pgEth port) 0x054 = 0 → node < 4096 → s.field pgPft 0x084 0 1 node = 1 →
           s.nodeAddr node = target → mac.length = 6 →
         ∃ t, exec (.neighborAdvertisement port target mac) s = .next t ∧ Map.find? t.pft.nextHop port = some mac
           ∧ (∀ k, k ≠ port → Map.find? t.pft.nextHop k = Map.find? s.pft.nextHop k)
           ∧ Reports { s with cnt := t.cnt, pft := { s.pft with nextHop := t.pft.nextHop } } t)
       ∧ (∀ dst src payload, (dst = s.pftAddr ∨ dst = s.linkLocal) → s.ipFrame port (8 + payload.length) ≤ s.largestFrame port →
         ∃ t f, exec (.echoRequest port ⟨dst, src⟩ payload) s = .next t ∧ f.what = 3 ∧ f.payload = payload ∧ f.addr = src ∧ f.hdr = dst
           ∧ (Map.getD t.tc.queues (port * 8 + s.classOf 7) []).getLast? = some f ∧ Reports { s with cnt := t.cnt } t)
       ∧ (∀ dst src payload, dst ≠ s.pftAddr → dst ≠ s.linkLocal →
         exec (.echoRequest port ⟨dst, src⟩ payload) s = .next (s.bump (pgEth port) 0x094))
       ∧ (∀ b, exec (.frameDiscard port true b) s = .next (s.bump (pgEth port) 0x090)
           ∧ exec (.frameDiscard port false b) s = .next (s.bump (pgEth port) 0x094)))

/-- Gates (R271 to R273): a COMMIT of a pending list within its limits waits for its start time; at the switch instant the list becomes
operational; an entry whose interval ends gives way to the next, and the list repeats.
A port that is up starts the frame of the highest class whose gate is open and that has one to send (R268, R273), a PFT packet behind
its Ethernet, IPv6 and UDP headers (R237, R239, R242, R264); one whose next hop is not known waits, and the port solicits it (R239).
Where the spec leaves it to the model, its choices are those of log entries 35, 91 and 145. -/
def Obligations.TrafficControl : Prop :=
  ((∀ (s : State) (master : Nat) (value : W32), MayWrite s master pgTc 0x080 → bitOf value.toNat 16 = true →
       let port := s.winOf master pgTc 0x080
       let new := s.taken pgTc 0x080 port value.toNat
       let len := bitsOf new 0 9
       let l := s.pendingList port len
       new < 2 ^ 32 → len ≤ 256 → (s.gate port).pend = none → (∀ e ∈ l, 1 ≤ e.1 ∧ e.1 ≤ 125000000) → cycleOf l ≤ 125000000 →
       ∃ t, exec (.gateCommit master value) s = .next t
         ∧ t.gate port = { s.gate port with pend := some (max (s.reg pgTc 0x084 port + 2 ^ 32 * s.reg pgTc 0x088 port) s.time, l) }
         ∧ (∀ k, k ≠ port → t.gate k = s.gate k) ∧ t.field pgTc 0x080 24 8 port = 0 ∧ t.log.seq = (s.log.seq + 1) % 2 ^ 64
         ∧ Reports { s with tc := { s.tc with gates := t.tc.gates }, regs := t.regs } t)
   ∧ ∀ (s : State) (port : Nat), s.phase = .ready →
       let g := s.gate port
       (∀ start l, g.pend = some (start, l) → g.switchAt start ≤ s.time →
         ∃ t, exec (.gateSwitch port) s = .next t ∧ t.gate port = { op := l, cur := 0, curStart := g.switchAt start, pend := none }
           ∧ (∀ k, k ≠ port → t.gate k = s.gate k) ∧ bitOf (t.reg pgTc 0x010) 0 = true
           ∧ Reports { s with tc := { s.tc with gates := t.tc.gates } } t)
       ∧ ∀ e, g.op[g.cur]? = some e → g.curStart + 8 * e.1 ≤ s.time →
         exec (.gateEntryAdvance port) s
           = .next (s.setGate port { g with cur := (g.cur + 1) % g.op.length, curStart := g.curStart + 8 * e.1 }))
  ∧ (∀ (s : State) (port cls : Nat) (f : Frame) (rest : List Frame) (u : State), s.phase = .ready → s.portUp port = true → cls < 8 →
       bitOf (s.reg pgRst 0x048) 18 = false → s.boot.resetting.contains 18 = false →
       s.mayStart port cls = true → classFrame port cls s = some (f, rest, u) →
       (∀ c, cls < c → c < 8 → s.mayStart port c = false ∨ classFrame port c s = none) →
       (f.what = 0 → s.nextMac port = none → exec (.egressSelect port) s = .next (s.send (.neighbor port false f.addr f.addr)))
       ∧ ((f.what ≠ 0 ∨ s.nextMac port ≠ none) →
         ∃ t, exec (.egressSelect port) s = .next t ∧ .frame port cls f.entity f.len ∈ t.out
           ∧ (f.what = 0 →
               let src := beAt f.hdr 4 2
               let path := byteAt f.hdr 8 % 16
               .packet port (s.outerOf port (s.priorityOf f.kind) (s.trafficClass cls) f.addr (49152 + src % 1024 * 16 + path) (src * 16 + path)
                 (f.hdr ++ f.payload)) f.hdr f.payload ∈ t.out)
           ∧ t.cnt64 (pgEth port) 0x060 = sat64 (s.cnt64 (pgEth port) 0x060) 1))

/-! ## Connections and packets -/

/-- Connections open and close (R243 to R245): PFT_OPEN_CONNECTION by a master with WRITE on an ACTIVE partition makes one connection,
CONNECTING, at the lowest free index, and shows the index and the status; PFT_CLOSE_CONNECTION closes an OPEN connection, at once where
nothing of it is unacknowledged, and one in ERROR; KEEPER_CONNECT makes a Keeper connection. No other connection changes.
Where the spec leaves it to the model, its choices are those of log entries 73 and 74. -/
def Obligations.ConnectionsOpenAndClose : Prop :=
  (∀ (s : State) (master i : Nat), MayWrite s master pgPft 0x090 →
    let node := bitsOf (s.sel master pgPft 0x088) 0 12
    let part := bitsOf (s.sel master pgPft 0x088) 12 8
    2 ≤ s.right master (partTarget part) → s.partActive part = true → s.field pgPft 0x084 0 1 node = 1 → s.freeConn = some i →
    ∃ t c, exec (.pftOpenConnection master) s = .next t ∧ Map.find? t.pft.conns i = some c ∧ c.state = .connecting ∧ c.keeper = false
      ∧ c.node = node ∧ c.part = part ∧ c.pkts = [] ∧ c.msgs = [] ∧ t.sel master pgPft 0x08C = i ∧ t.sel master pgPft 0x090 = 0
      ∧ OthersKept s t i
      ∧ Reports { s with pft := { s.pft with conns := t.pft.conns }, sels := t.sels } t)
  ∧ (∀ (s : State) (master : Nat) (c : Conn), MayWrite s master pgPft 0x090 →
    let i := s.sel master pgPft 0x08C % 65536
    Map.find? s.pft.conns i = some c → c.keeper = false → 2 ≤ s.right master (partTarget c.part) → (c.state = .opened ∨ c.state = .error) →
    ∃ t c', exec (.pftCloseConnection master) s = .next t ∧ Map.find? t.pft.conns i = some c'
      ∧ c'.state = (if c.state = .opened ∧ ¬(c.pkts = [] ∧ c.waitq = []) then .closing else .closed)
      ∧ t.sel master pgPft 0x090 = 0 ∧ OthersKept s t i
      ∧ Reports { s with pft := { s.pft with conns := t.pft.conns }, sels := t.sels } t)
  ∧ ∀ (s : State) (node i : Nat), s.phase = .ready → s.field pgPft 0x084 0 1 node = 1 → s.freeConn = some i →
    (∀ kv ∈ s.pft.conns, kv.2.keeper = true → kv.2.node = node → kv.2.state = .closed ∨ kv.2.state = .error) →
    ∃ t c, exec (.keeperConnect node) s = .next t ∧ Map.find? t.pft.conns i = some c ∧ c.state = .connecting ∧ c.keeper = true
      ∧ c.node = node ∧ OthersKept s t i
      ∧ Reports { s with pft := { s.pft with conns := t.pft.conns } } t

/-- CONNECT for an ACTIVE partition's tenant makes an OPEN connection with the peer's index and first PSN, and for any other tenant none;
ACCEPT makes a CONNECTING connection OPEN, and one of a partition that is not ACTIVE any more closes again; CLOSE takes an OPEN one to CLOSED, at once where nothing of it is unacknowledged, and a
CONNECTING one of a partition to ERROR (R243 to R246).
Where the spec leaves it to the model, its choices are those of log entries 39, 73 and 146. -/
def Obligations.ConnectionSetup : Prop :=
  ∀ (s : State) (p : Packet),
    let u := heard p s
    let h := p.hdr
    (Arrives s p 4 → byteAt h 16 = 0 →
      (∀ part i, s.tenantPart (beAt h 18 2) = some part → s.partActive part = true → u.freeConn = some i →
        ∃ t c, exec (.connect p) s = .next t ∧ Map.find? t.pft.conns i = some c ∧ c.state = .opened ∧ c.keeper = false
          ∧ c.node = pNode h ∧ c.part = part ∧ c.peer = pSrc h ∧ c.rxNext = beAt h 20 4 % 2 ^ 24 ∧ OthersKept u t i
          ∧ Reports { u with pft := { u.pft with conns := t.pft.conns } } t)
      ∧ ((∀ part, s.tenantPart (beAt h 18 2) = some part → s.partActive part = false) →
        ∃ t, exec (.connect p) s = .next t ∧ t.pft.conns = u.pft.conns ∧ Reports u t))
    ∧ (∀ c, Arrives s p 5 → Map.find? u.pft.conns (pDst h) = some c → c.state = .connecting → c.keeper = false → c.node = pNode h →
      (u.partActive c.part = true → exec (.accept p) s = .next (u.setConn (pDst h) { c with
        state := .opened, peer := pSrc h, rxNext := beAt h 20 4 % 2 ^ 24, expiries := 0, rto := u.field pgPft 0x048 0 9, timer := u.time }))
      ∧ (u.partActive c.part = false → c.pkts = [] → c.waitq = [] →
        ∃ t c', exec (.accept p) s = .next t ∧ Map.find? t.pft.conns (pDst h) = some c' ∧ c'.state = .closed ∧ OthersKept u t (pDst h)
          ∧ Reports { u with pft := { u.pft with conns := t.pft.conns } } t))
    ∧ ∀ c, Arrives s p 6 → IsFor u p c →
      (c.state = .opened → ∃ t c', exec (.close p) s = .next t ∧ Map.find? t.pft.conns (pDst h) = some c'
        ∧ c'.state = (if c.pkts = [] ∧ c.waitq = [] then .closed else .closing) ∧ OthersKept u t (pDst h)
        ∧ Reports { u with pft := { u.pft with conns := t.pft.conns } } t)
      ∧ (c.state = .connecting → c.keeper = false → exec (.close p) s = .next (connError (pDst h) 0 u))

/-- Acknowledgements and retransmission of an OPEN connection of a partition (R248 to R250): an ACK takes away the packets it covers and
no other, and restarts the timer where the oldest one moved; NOCONN is a failure; the end of PFT_ACK.DELAY acknowledges what came, and not
before; the timer's end, and not before, sends every unacknowledged packet again with RETX and twice the timeout, and the last one allowed
is a failure. A failure leaves the connection
in ERROR with nothing to send.
Where the spec leaves it to the model, its choices are those of log entry 146. -/
def Obligations.PacketsAcknowledged : Prop :=
  (∀ (s : State) (p : Packet) (c : Conn), Arrives s p 3 →
    let u := heard p s
    let h := p.hdr
    let code := beAt h 28 4 / 2 ^ 24
    IsFor u p c → c.state = .opened →
    (code = 4 → exec (.pftAck p) s = .next (connError (pDst h) 2 u))
    ∧ (code ≠ 4 → c.keeper = false → (∀ m ∈ c.msgs, m.stream = 0 ∧ m.page = 0) → c.waitq = [] →
      let left := c.pkts.filter fun x => !acked c.oldest (beAt h 16 4 % 2 ^ 24) (beAt h 20 8) x.psn
      ∃ t c', exec (.pftAck p) s = .next t ∧ Map.find? t.pft.conns (pDst h) = some c' ∧ c'.state = .opened ∧ c'.pkts = left
        ∧ c'.oldest = (match left with | x :: _ => x.psn | [] => c.nextPsn)
        ∧ c'.expiries = (if c'.oldest = c.oldest then c.expiries else 0)
        ∧ c'.timer = (if c'.oldest = c.oldest then c.timer else u.time)
        ∧ OthersKept u t (pDst h)
        ∧ Reports { u with pft := { u.pft with conns := t.pft.conns } } t))
  ∧ (∀ (s : State) (i : Nat) (c : Conn), s.phase = .ready → Map.find? s.pft.conns i = some c → c.state = .opened →
    (c.unacked ≠ 0 → c.firstAt + 100 * s.field pgPft 0x050 8 8 ≤ s.time →
      exec (.ackDelayExpiry i) s = .next (sendCtrl c.addr 3 c.peer i 0 (ackRest c.rxNext c.sackBits c.lastRx 0 c.lastMsg)
        (s.setConn i { c with unacked := 0 })))
    ∧ (s.time < c.firstAt + 100 * s.field pgPft 0x050 8 8 → exec (.ackDelayExpiry i) s = .next s)
    ∧ (s.time < c.timer + 1000 * c.rto → exec (.retransmitTimeout i) s = .next s)
    ∧ (c.pkts ≠ [] → c.timer + 1000 * c.rto ≤ s.time → c.expiries + 1 < s.field pgPft 0x048 16 4 →
      ∃ t c', exec (.retransmitTimeout i) s = .next t ∧ Map.find? t.pft.conns i = some c'
        ∧ c' = { c with expiries := c.expiries + 1, rto := min 500 (2 * c.rto), timer := s.time,
                        pkts := c.pkts.map (retx (max 1 (s.field pgPft 0x040 4 5))) }
        ∧ Reports { s.bump pgPft 0x0C0 c.pkts.length with pft := { s.pft with conns := t.pft.conns } } t)
    ∧ (c.pkts ≠ [] → c.timer + 1000 * c.rto ≤ s.time → s.field pgPft 0x048 16 4 ≤ c.expiries + 1 →
      exec (.retransmitTimeout i) s = .next (connError i 1 s)))
  ∧ ∀ (s : State) (i cause : Nat) (c : Conn), Map.find? s.pft.conns i = some c → c.state = .opened → c.keeper = false → c.msgs = [] →
      s.reqs = [] → s.pft.sends = [] →
      let t := connError i cause s
      Map.find? t.pft.conns i = some { c with state := .error, pkts := [], waitq := [], msgs := [], unacked := 0 }
        ∧ t.pft.finHold = s.pft.finHold.filter (fun f => f.conn != i) ∧ bitOf (t.reg pgPft 0x010) 1 = true
        ∧ t.pft.regions = Map.filterKV s.pft.regions (fun _ r => !(r.loc == 2 && r.finQp == discardMark && r.fn == i))
        ∧ Reports { s.bump pgPft 0x0D8 with pft := { s.pft with
            conns := t.pft.conns, finHold := t.pft.finHold, regions := t.pft.regions } } t

/-- Sequenced packets of an OPEN connection of a partition without a policer (R246, R247, R251, R254, R255): one that no connection takes
is answered, a duplicate acknowledged again, one outside the window dropped, and counted; the next one in order moves NEXT on. A SEND of
one packet takes the first posted buffer and is written to it; a WRITE without FIN is written at its region's base plus its offset and
counts its bytes in order, and one that no region of the partition takes is refused, written nowhere and counted in order all the same.
Where the spec leaves it to the model, its choices are those of log entries 71, 72, 145, 148 and 149. -/
def Obligations.PacketsAccepted : Prop :=
  ∀ (s : State) (p : Packet),
    let u := heard p s
    let h := p.hdr
    let n := p.payload.length
    (∀ x ∈ [(1, Instr.pftSendPacket p), (2, Instr.pftWritePacket p), (7, Instr.event p)], Arrives s p x.1 →
      (Map.find? u.pft.conns (pDst h) = none → ∃ t, exec x.2 s = .next t ∧ t = answerNoConn p u ∧ Reports u t)
      ∧ ∀ c, IsFor u p c → c.state = .opened → (x.1 = 7 ∨ u.field pgTc 0x074 0 20 c.part = 0) →
        (c.arrival (pPsn h) = .far → exec x.2 s = .next (u.bump pgPft 0x0C8))
        ∧ (c.arrival (pPsn h) = .dup → ∃ t, exec x.2 s = .next t
            ∧ Map.find? t.pft.conns (pDst h) = some { c with unacked := 0 }
            ∧ Reports { u.bump pgPft 0x0C4 with pft := { u.pft with conns := t.pft.conns } } t))
    ∧ ∀ c, IsFor u p c → c.state = .opened → c.keeper = false → u.field pgTc 0x074 0 20 c.part = 0 → c.rxGot = [] → pPsn h = c.rxNext →
      let next (c' : Conn) : Prop := c'.rxNext = (c.rxNext + 1) % 2 ^ 24 ∧ c'.rxGot = [] ∧ c'.state = .opened
      let only (t : State) (srqs : Map Srq) : Prop :=
        Reports { u with pft := { u.pft with conns := t.pft.conns }, srqs := srqs, cnt := t.cnt, regs := t.regs } t
          ∧ OthersKept u t (pDst h)
          ∧ t.cnt64 pgPft 0x0A8 = sat64 (u.cnt64 pgPft 0x0A8) 1
      (Arrives s p 7 → ∃ t c', exec (.event p) s = .next t ∧ Map.find? t.pft.conns (pDst h) = some c' ∧ next c' ∧ only t u.srqs)
      ∧ (∀ q b rest, Arrives s p 1 → sCmd h = false → sOff h = 0 → sLen h = n → n ≠ 0 → u.pft.sends = [] →
        Map.find? u.srqs c.part = some q → q.bufs = b :: rest → n ≤ b.len →
        ∃ t c', exec (.pftSendPacket p) s = .next t ∧ Map.find? t.pft.conns (pDst h) = some c' ∧ next c' ∧ c'.inOrder = c.inOrder % 2 ^ 32
          ∧ .hostWrite q.port b.addr p.payload ∈ t.out ∧ t.pft.sends = [] ∧ t.cnt64 pgPft 0x0B8 = sat64 (u.cnt64 pgPft 0x0B8) n
          ∧ only t (Map.insert u.srqs c.part { q with
              bufs := rest, head := (q.head + 1) % 2 ^ bitsOf (u.reg (pgHq q.port 0) 0x0AC c.part) 0 5 }))
      ∧ (∀ r, Arrives s p 2 → bitOf (pFlags h) 0 = false → u.pft.finHold = [] → u.regionOf (wRkey h) = some r → r.loc < 2 →
        r.owner = c.part → wOff h + n ≤ r.len → u.reclaiming (wRkey h) = false →
        ∃ t c', exec (.pftWritePacket p) s = .next t ∧ Map.find? t.pft.conns (pDst h) = some c' ∧ next c'
          ∧ c'.inOrder = (c.inOrder + n) % 2 ^ 32 ∧ .hostWrite r.loc (r.base + wOff h) p.payload ∈ t.out
          ∧ t.cnt64 pgPft 0x0B8 = sat64 (u.cnt64 pgPft 0x0B8) n ∧ only t u.srqs)
      ∧ (Arrives s p 2 → bitOf (pFlags h) 0 = false → u.pft.finHold = [] → u.target c h n = none →
        ∃ t c', exec (.pftWritePacket p) s = .next t ∧ Map.find? t.pft.conns (pDst h) = some c' ∧ next c'
          ∧ c'.inOrder = (c.inOrder + n) % 2 ^ 32 ∧ c'.refusedSince = true ∧ bitOf (t.reg pgPft 0x010) 3 = true
          ∧ t.reg pgPft 0x0D0 = sat32 (u.reg pgPft 0x0D0) 1 ∧ only t u.srqs)

/-- Beacons (R352, R354, Table 14-6): one that arrives records what its sender says of itself and whether it lists this node; BEACON_SEND,
once PERIOD_MS has passed, sends one over every OPEN Keeper connection; and a peer not heard of for LOSS periods is noted silent once.
Where the spec leaves it to the model, its choices are those of log entries 2, 44 and 98. -/
def Obligations.Beacons : Prop :=
  (∀ (s : State) (p : Packet), Arrives s p 8 → beaconOk p = true →
    let u := heard p s
    let h := p.hdr
    ∃ t x, exec (.beacon p) s = .next t ∧ Map.find? t.res.peers (pNode h) = some x ∧ x.fd = beAt h 16 2 ∧ x.role = byteAt h 18 % 4
      ∧ x.nand = byteAt h 18 / 4 % 4 ∧ x.boot = beAt h 20 4 ∧ x.epoch = beAt h 32 4 ∧ x.last = u.time ∧ x.silent = false
      ∧ (x.listsMe = true ↔ ∃ k, k < min 8 (byteAt h 38) ∧ beAt p.payload (2 * k) 2 % 4096 = u.nodeId)
      ∧ (pNode h ∈ t.res.selfListed ↔ x.listsMe = true)
      ∧ (∀ k, k ≠ pNode h → Map.find? t.res.peers k = Map.find? u.res.peers k) ∧ { t with res := u.res } = u)
  ∧ (∀ s : State, s.phase = .ready →
    (s.time < s.res.beaconAt + 1000000 * s.field pgRes 0x058 0 10 → exec .beaconSend s = .next s)
    ∧ (s.res.beaconAt + 1000000 * s.field pgRes 0x058 0 10 ≤ s.time → s.pftEnabled = true → s.upPorts ≠ [] →
      ∃ t, exec .beaconSend s = .next t ∧ Reports { s with res := { s.res with beaconAt := s.time } } t
        ∧ ∀ i c, Map.find? s.pft.conns i = some c → c.keeper = true → c.state = .opened →
          ∃ port f, f ∈ Map.getD t.tc.queues (port * 8 + s.classOf 6) [] ∧ f.addr = c.addr ∧ f.kind = 6 ∧ pType f.hdr = 8
            ∧ pDst f.hdr = c.peer % 65536))
  ∧ ∀ (s : State) (node : Nat) (x : Peer), s.phase = .ready → Map.find? s.res.peers node = some x → x.silent = false →
    x.last + s.field pgRes 0x058 0 10 * s.field pgRes 0x058 10 4 * 1000000 ≤ s.time →
    ∃ t, exec (.peerSilent node) s = .next t ∧ Map.find? t.res.peers node = some { x with silent := true }
      ∧ (∀ k, k ≠ node → Map.find? t.res.peers k = Map.find? s.res.peers k) ∧ Reports { s with res := { s.res with peers := t.res.peers } } t

/-! ## Power, pins and boot -/

/-- Profiles, the ladder and the temperatures (R433 to R438, Tables 19-3 and 19-4): a permitted profile waits for the next decision, which logs it, P600 on
an air-rated part is refused; a decision, of which none comes within 1 ms of the last (R27), shows the measured power, takes a waiting
profile, fills the bucket, moves down one position on an overload, a hard limit or a thermal condition, and up one while the bucket is half
full and nothing holds it; a settled rise puts the
position in force and a failed one does not; a sample shows the temperatures, and at a trip point the part stops.
Where the spec leaves it to the model, its choices are those of log entries 2 and 93. -/
def Obligations.PowerFollows : Prop :=
  ∀ s : State,
    let others (t : State) : Prop := ∀ page off win, page ≠ pgPwr → page ≠ pgClk → reportReg (regKey page off win) = false →
      t.reg page off win = s.reg page off win
    (∀ (master : Nat) (value : W32), MayWrite s master pgPwr 0x040 →
      let p := value.toNat % 4
      (p < 3 → (p ≠ 2 ∨ s.fuses.liquid = true) → s.profileNow ≠ p → s.pwr.profileNext ≠ some p →
        exec (.pwrProfile master value) s = .next
          { s.setField pgPwr 0x040 8 8 0 with pwr := { s.pwr with profileNext := some p, profileBy := master } })
      ∧ (p = 2 → s.fuses.liquid = false →
        ∃ t, exec (.pwrProfile master value) s = .next t ∧ t.field pgPwr 0x040 8 8 = 0x0C ∧ bitOf (t.reg pgPwr 0x010) 1 = true
          ∧ Reports (s.setField pgPwr 0x040 8 8 0x0C) t))
    ∧ (∀ dw : Nat, s.phase = .ready → s.time < s.pwr.decidedAt + 1000000 → exec (.powerDecision dw) s = .next s)
    ∧ (∀ dw : Nat, s.phase = .ready → s.pwr.decidedAt + 1000000 ≤ s.time → dw < 65536 → s.position ≤ 9 →
      let p := s.pwr.profileNext.getD s.profileNow
      let avg : Nat := if p = 0 then 4000 else if p = 1 then 4800 else 6000
      let depth : Int := if p = 2 then 0 else 240000
      let b0 := if s.pwr.profileNext = none then s.pwr.bucket else min s.pwr.bucket depth
      let b : Int := min depth (b0 + avg - dw)
      let down := (b < 0 ∧ avg < dw) ∨ 6000 < dw ∨ s.pwr.thermal = true
      let up := depth ≤ 2 * b ∧ s.pwr.nearThermal = false ∧ s.pwr.holdoff = false ∧ s.pwr.rising = false ∧ 0 < s.position
      p < 3 →
      ∃ t, exec (.powerDecision dw) s = .next t
        ∧ t.log.seq = (if s.pwr.profileNext.isSome = true then (s.log.seq + 1) % 2 ^ 64 else s.log.seq)
        ∧ t.pwr.bucket = b ∧ t.pwr.decidedAt = s.time ∧ t.pwr.profileNext = none ∧ t.reg pgPwr 0x048 = dw ∧ t.profileNow = p
        ∧ (down → t.position = min 9 (s.position + 1) ∧ (s.position < 9 → t.field pgPwr 0x044 4 5 = 12 - min t.position 6))
        ∧ (¬down → up → t.position = s.position - 1
            ∨ (t.position = s.position ∧ t.pwr.rising = true ∧ t.pwr.target = s.position - 1))
        ∧ (¬down → ¬up → t.position = s.position) ∧ others t)
    ∧ (s.phase = .ready → s.pwr.rising = true → s.pwr.target ≤ 9 →
      (∃ t, exec .avsSettled s = .next t ∧ t.position = s.pwr.target ∧ t.field pgPwr 0x044 4 5 = 12 - min s.pwr.target 6
        ∧ t.pwr = { s.pwr with rising := false } ∧ others t)
      ∧ ∃ t, exec .avsFail s = .next t ∧ t.position = s.position ∧ t.reg pgPwr 0x068 = sat32 (s.reg pgPwr 0x068) 1
        ∧ bitOf (t.reg pgPwr 0x010) 3 = true
        ∧ Reports { s.bump pgPwr 0x068 with pwr := { s.pwr with rising := false, target := s.position, holdoff := true } } t)
    ∧ ∀ (tj sensor : Nat) (hbms : List Nat), (s.phase = .ready ∨ s.phase = .recovery ∨ s.phase = .flushing) →
      let hot (lim : Nat) : Prop := ∃ k, k < 8 ∧ k < hbms.length ∧ lim ≤ hbms.getD k 0
      ∃ t, exec (.temperatureSample tj sensor hbms) s = .next t ∧ t.field pgPwr 0x050 0 8 = min 255 tj
        ∧ (∀ k, k < 8 → t.reg (pgHbm k) 0x04C = min 255 (hbms.getD k 0))
        ∧ (0 < s.field pgPwr 0x054 8 7 →
            (t.pwr.thermal = true ↔ s.field pgPwr 0x054 0 7 ≤ tj ∨ hot (s.field pgPwr 0x054 8 7)))
        ∧ ((115 ≤ tj ∨ hot 100) → t.phase = .tripped ∧ t.pins.thermTripN = false)
        ∧ (¬(115 ≤ tj ∨ hot 100) → t.phase = s.phase ∧ t.pins = s.pins)

/-- The pins and references (R234, R372, R377, R386, R388, R428 to R431): PWR_FAIL_N low starts the flush, whose end leaves the journal and every
buffered unit durable, each dirty map segment in a new place and the journal closed by a CLOSED record of the boot count, and the node
waiting for power-off; SYS_RST_N low, a rail out of its limits and the loss of REF100 stop the part; a
PLL that loses lock stalls its crossings until it has locked again.
Power-on (R372, R377, R383, R429): a PWR_FAIL_N that is low holds the part at the first step and its rise lets it proceed; without two
Keeper pairs, or without an image that verifies, the node comes up in recovery, and else in service. The board's parameter page gives the
NAND's geometry, and its blocks, its durable journal, the fuses and the queue of commands stay as they were (R208, R229, R235).
Where the spec leaves it to the model, its choices are those of log entries 8, 17, 18, 19, 89 and 94. -/
def Obligations.PinsAndBoot : Prop :=
  (∀ s : State,
     (s.phase = .ready → exec .pwrFailNFall s = .next { s with
         pins := { s.pins with pwrFailN := false }, phase := .flushing, flash := { s.flash with formatting := false } })
     ∧ (s.phase = .flushing → s.boot.recovery = false → s.flash.serving = true →
         ∃ t, exec .flushComplete s = .next t ∧ t.phase = .flushed ∧ t.flash.jpending = []
           ∧ t.flash.jdurable.getLast?.map (fun r => (r.kind, r.a)) = some (.closed, s.boot.count) ∧ t.flash.moves = []
           ∧ (s.flash.segDirty = [] → t.flash.segDirty = [] ∧ t.flash.segDir = s.flash.segDir)
           ∧ (∀ g x pun f, s.flash.segDirty = [(g, x)] → s.flash.program (g % 16) true g = some (pun, f) →
               t.flash.segDirty = [] ∧ Map.find? t.flash.segDir g = some pun ∧ Map.find? t.flash.segDurable g = some pun)
           ∧ t.flash.buffered = 0 ∧ t.flash.queuedUnits = [] ∧ t.flash.closed = s.flash.formatted ∧ t.flash.map = s.flash.map
           ∧ { t with phase := s.phase, flash := s.flash } = s)
     ∧ exec .sysRstNFall s = .next { s with phase := .off, pins := { s.pins with sysRstN := false } }
     ∧ (∀ rail, rail < 8 → s.phase ≠ .off → s.phase ≠ .tripped → exec (.railFault rail) s = .next { s with phase := .stopped })
     ∧ (s.phase ≠ .off → s.phase ≠ .tripped →
         exec .ref100Lost s = .next { s with phase := .stopped, pins := { s.pins with ref100 := false } })
     ∧ (∀ k, k < 9 → s.phase = .ready → s.boot.stalledPlls.contains k = false →
         (∃ t, exec (.pllLockLost k) s = .next t ∧ t.boot.stalledPlls = s.boot.stalledPlls ++ [k]
           ∧ t.reg pgClk 0x050 = sat32 (s.reg pgClk 0x050) 1 ∧ bitOf (t.reg pgClk 0x010) 0 = true
           ∧ Reports { s.bump pgClk 0x050 with boot := t.boot } t))
     ∧ ∀ k, s.phase = .ready → ∃ t, exec (.pllRelock k) s = .next t
         ∧ (∀ j, j ∈ t.boot.stalledPlls ↔ j ∈ s.boot.stalledPlls ∧ j ≠ k) ∧ { t with boot := s.boot } = s)
  ∧ (∀ (s : State) (keepers : Nat) (hbms lanes pods : List Nat) (ces : Nat) (params : List Bytes),
       let held (x : State) : State := writeBootCount ((blankSettings x).draw).2
       let slot (x : State) : Option (Nat × Bool) := (held x).chooseSlot (Config.freeChoice x.fresh)
       let up (x t : State) : Prop :=
         (t.phase = .recovery ↔ 2 ≤ keepers ∨ slot x = none) ∧ (t.phase ≠ .recovery → t.phase = .ready)
           ∧ (t.boot.recovery = true ↔ t.phase = .recovery) ∧ t.fuses = x.fuses ∧ t.pending = x.pending
           ∧ (t.phase = .recovery → t.flash = x.flash ∧ t.parts = [(0, Partition.created 0 687)] ∧ t.primary = 0)
       (s.phase = .off ∨ s.phase = .stopped ∨ s.phase = .flushed ∨ s.phase = .tripped →
         (s.pins.pwrFailN = false → ∃ t, exec (.powerOn keepers hbms ⟨lanes, pods⟩ ⟨ces, params⟩) s = .next t ∧ t.phase = .waitPwrFail
           ∧ t.fuses = s.fuses ∧ t.boot.smem = s.boot.smem ∧ t.flash.blocks = s.flash.blocks ∧ t.pins.sysRstN = true)
         ∧ (s.pins.pwrFailN = true → ∃ t, exec (.powerOn keepers hbms ⟨lanes, pods⟩ ⟨ces, params⟩) s = .next t
             ∧ up (readNand ces params (powerCycled s)) t ∧ t.fuses = s.fuses ∧ t.pending = s.pending))
       ∧ (∀ g, Geometry.ofBoard ces params = some g →
           let f := (readNand ces params (powerCycled s)).flash
           f.ces = g.ces ∧ f.luns = g.luns ∧ f.planes = g.planes ∧ f.blocksPerLun = g.blocksPerLun ∧ f.pagesPerBlock = g.pagesPerBlock
             ∧ f.mounting = s.flash.formatted ∧ f.blocks = s.flash.blocks ∧ f.jdurable = s.flash.jdurable)
       ∧ (s.phase = .waitPwrFail → s.boot.recovery = false →
           ∃ t, exec (.pwrFailNRise keepers hbms lanes pods) s = .next t ∧ t.pins.pwrFailN = true
             ∧ up { s with pins := { s.pins with pwrFailN := true } } t))

/-! ## Compositions, metering and the sideband -/

/-- Compositions and their metering (R360, R366, R367): CMP_EPOCH takes a value while the slot is not VALID, or a newer one; setting VALID clears
the slot's counters and starts its time, clearing it charges the slot's objects to slot 16; a sample, of which there is one in a
millisecond, adds every slot's held bytes, divided by 1,000 with the remainder carried, to its HBM and NAND counters.
Where the spec leaves it to the model, its choices are those of log entries 2 and 81. -/
def Obligations.CompositionsMeter : Prop :=
  (∀ (s : State) (master : Nat) (value : W32),
    let k := s.winOf master pgCmp 0x058
    k < 16 →
    (MayWrite s master pgCmp 0x058 → (s.field pgCmp 0x05C 0 1 k = 0 ∨ newer 32 value.toNat (s.reg pgCmp 0x058 k) = true) →
      s.reg pgCmp 0x058 k ≠ value.toNat →
      ∃ t, exec (.cmpEpoch master value) s = .next t ∧ t.reg pgCmp 0x058 k = value.toNat ∧ t.log.seq = (s.log.seq + 1) % 2 ^ 64
        ∧ Reports (s.setReg pgCmp 0x058 value.toNat k) t)
    ∧ (MayWrite s master pgCmp 0x05C → s.reg pgCmp 0x05C k = 0 → bitOf value.toNat 0 = true →
      ∃ t, exec (.cmpMctrl master value) s = .next t ∧ t.reg pgCmp 0x05C k = 1 ∧ (∀ j, j < 5 → t.cnt64 pgCmp (0x064 + 8 * j) k = 0)
        ∧ t.reg pgCmp 0x060 k = 0 ∧ Map.find? t.cmp.since k = some s.time ∧ t.log.seq = (s.log.seq + 1) % 2 ^ 64
        ∧ Reports { s.setReg pgCmp 0x05C 1 k with cmp := t.cmp } t)
    ∧ (MayWrite s master pgCmp 0x05C → s.reg pgCmp 0x05C k = 1 → bitOf value.toNat 0 = false →
      ∃ t, exec (.cmpMctrl master value) s = .next t ∧ t.reg pgCmp 0x05C k = 0 ∧ Map.find? t.cmp.since k = none
        ∧ (∀ h, (Map.find? t.convs h).map (·.slot) = (Map.find? s.convs h).map fun c => if c.slot = k then 16 else c.slot)
        ∧ (∀ h, (Map.find? t.pages h).map (·.slot) = (Map.find? s.pages h).map fun p => if p.slot = k then 16 else p.slot)
        ∧ Reports { s.setReg pgCmp 0x05C 0 k with
            cmp := t.cmp, convs := t.convs, pages := t.pages, masks := t.masks, tier := t.tier } t))
  ∧ ∀ s : State, s.phase = .ready →
    (s.time < s.cmp.sampledAt + 1000000 → exec .meteringSample s = .next s)
    ∧ (s.cmp.sampledAt + 1000000 ≤ s.time → ∃ t, exec .meteringSample s = .next t ∧ t.cmp.sampledAt = s.time
      ∧ (∀ k, k < 17 →
        t.cnt64 pgCmp 0x06C k = sat64 (s.cnt64 pgCmp 0x06C k) ((s.slotHbm k + Map.getD s.cmp.rem (2 * k) 0) / 1000)
        ∧ t.cnt64 pgCmp 0x074 k = sat64 (s.cnt64 pgCmp 0x074 k) ((s.slotNand k + Map.getD s.cmp.rem (2 * k + 1) 0) / 1000)
        ∧ Map.getD t.cmp.rem (2 * k) 0 = (s.slotHbm k + Map.getD s.cmp.rem (2 * k) 0) % 1000
        ∧ (∀ t0, Map.find? s.cmp.since k = some t0 → t0 ≤ s.time →
            t.cnt64 pgCmp 0x064 k = sat64 (s.cnt64 pgCmp 0x064 k) (s.time - t0) ∧ Map.find? t.cmp.since k = some s.time))
      ∧ Reports { s with cmp := t.cmp } t)

/-- The management bus (R440, Table 19-7): a block write of 4 bytes selects a BAR0 address; a read answers that register as a read by master
0x3FF sees it, and a write is a register write by master 0x3FF. Boundary scan answers at all times, and any other JTAG instruction does
nothing while DEBUG_OPEN is 0.
Where the spec leaves it to the model, its choices are those of log entries 10 and 104. -/
def Obligations.SidebandReaches : Prop :=
  ∀ (s : State) (data : Bytes), (s.phase = .ready ∨ s.phase = .recovery) → data.length = 4 →
    exec (.smbusSelect data) s = .next { s with pwr := { s.pwr with smbusSel := leAt data 0 4 } }
    ∧ (let a := s.pwr.smbusSel
       ∃ t, exec .smbusRead s = .next (crossRegister (a / 0x1000) true t)
         ∧ t.out = s.out ++ [.smbus (toLE 4 (s.readReg 0x3FF (a / 0x1000) (a % 0x1000 / 4 * 4)))] ∧ { t with out := s.out, latch := s.latch } = s)
    ∧ exec (.smbusWrite data) s = exec (.registerWrite 0x3FF s.pwr.smbusSel (BitVec.ofNat 32 (leAt data 0 4)) 0xF) s
    ∧ exec (.jtagInstruction true) s = .next (s.send .boundaryScan)
    ∧ (s.fuses.debugOpen = false → exec (.jtagInstruction false) s = .next s)

/-! ## Tiers and lending -/

/-- The end of a migration (R194, R195): a page whose destination copy is durable is SEALED in HBM with its NAND copy as its shadow, SEALED in
NAND, or LENT, and its bytes move through its region's arbiter and its die's link; a promotion from NAND waits for a mount; one that fails returns to its source and is counted; and the copy that a completed migration left goes once nothing reads it.
No other page changes.
Where the spec leaves it to the model, its choices are those of log entries 25, 83 and 151. -/
def Obligations.MigrationsEnd : Prop :=
  ∀ (s : State) (h : Nat) (p : Page), s.phase = .ready → s.quiet 21 = false → s.tier.grantsIn = [] → Map.find? s.pages h = some p →
    let others (t : State) : Prop := ∀ k, k ≠ h → Map.find? t.pages k = Map.find? s.pages k
    (p.state = .migrating → p.restoring = false → s.destDurable p = true → (p.dest = 0 → p.srcTier = 1 → s.flash.mounting = false) →
      ∃ t q u, exec (.migrationComplete h) s = .next t ∧ Map.find? t.pages h = some q ∧ others t
        ∧ (p.dest = 0 → q.state = .sealed ∧ q.tier = 0 ∧ q.promoTime = s.time ∧ q.loc = none
            ∧ (p.srcTier = 1 → q.shadow = p.loc ∧ t.flash = s.flash) ∧ t.cnt64 pgTier 0x068 = sat64 (s.cnt64 pgTier 0x068) 1)
        ∧ (p.dest = 1 → q.state = .sealed ∧ q.tier = 1 ∧ q.loc = p.loc ∧ t.cnt64 pgTier 0x060 = sat64 (s.cnt64 pgTier 0x060) 1
            ∧ (p.srcTier = 0 → p.readers = [] → p.holders = 0 → q.blocks = 0 ∧ q.srcHeld = false))
        ∧ (p.dest = 2 → q.state = .lent ∧ q.tier = 2 ∧ (p.srcTier ≠ 2 → q.lend = p.lend) ∧ t.cnt64 pgTier 0x078 = sat64 (s.cnt64 pgTier 0x078) 1
            ∧ (p.srcTier = 0 → p.readers = [] → p.holders = 0 → q.blocks = 0))
        ∧ Reports { s.setFlash u with pages := t.pages, reqs := t.reqs, regions := t.regions, links := t.links, cnt := t.cnt } t)
    ∧ (p.state = .migrating → p.restoring = false →
      ∃ t q u, exec (.migrationFail h) s = .next t ∧ Map.find? t.pages h = some q ∧ others t
        ∧ q.state = (if p.srcTier = 2 then .lent else .sealed) ∧ q.tier = p.tier
        ∧ (p.dest = 0 → q.blocks = 0 ∧ q.loc = p.loc) ∧ (p.dest = 1 → q.loc = none ∧ q.blocks = p.blocks)
        ∧ (p.dest = 2 → q.lend = none ∧ q.loc = p.loc)
        ∧ Reports { (s.setFlash u).bump pgTier 0x090 with pages := t.pages, reqs := t.reqs } t)
    ∧ (p.srcHeld = true → p.srcReaders = [] → p.holders = 0 →
      ∃ t q u, exec (.sourceCopyRelease h) s = .next t ∧ Map.find? t.pages h = some q ∧ others t ∧ q.srcHeld = false ∧ q.state = p.state
        ∧ q.tier = p.tier ∧ (p.srcTier = 0 → q.blocks = 0 ∧ t.flash = s.flash) ∧ (p.srcTier = 1 → q.shadow = none ∧ q.blocks = p.blocks)
        ∧ Reports { s.setFlash u with pages := t.pages } t)

/-- What moves pages (R187, R190, R191, R196): an age event notes the new age of a sealed page of a UNIFIED partition, and a rule without a
target leaves it where it lies; below LOW_PCT of a partition's free share the pressure evaluation raises its cause, starts the partition's
relief and takes the oldest page with a shadow down to it, and at or above it, with no relief begun, it does nothing; an eviction lets the
waiting APPEND try again, and while it does not fit takes the oldest CACHE page to its shadow or to ABSENT for it (R206).
Where the spec leaves it to the model, its choices are those of log entry 82. -/
def Obligations.PagesMoveDown : Prop :=
  (∀ (s : State) (h : Nat) (p : Page), s.phase = .ready → s.quiet 21 = false → Map.find? s.pages h = some p → p.state ≠ .opened →
    p.state ≠ .absent → s.unified p.part = true →
    let b := ageBucket s.time p.sealTime
    let u := s.updPage h fun q => { q with age := b }
    b ≠ p.age → bitsOf (u.ruleAction (u.pageKey p b 2)) 0 2 = 3 → exec (.ageEvent h) s = .next u)
  ∧ (∀ (s : State) (part : Nat) (x : Partition), s.phase = .ready → s.tier.grantsIn = [] → s.tier.suspended = [] → s.tier.relieving = [] →
    (∀ kv ∈ s.pages, kv.2.restoring = false) → s.parts = [(part, x)] → x.flagged = false → s.field pgTier 0x040 16 1 = 1 →
    let low := s.field pgTier 0x040 0 7
    let high := s.field pgTier 0x040 8 7
    (low * s.shareAll part ≤ 100 * s.shareFree part → exec .pressureEval s = .next s)
    ∧ (low ≤ high → 100 * s.shareFree part < low * s.shareAll part →
      ∃ t, exec .pressureEval s = .next t ∧ bitOf (t.reg pgTier 0x010) 0 = true ∧ t.tier.relieving = [part]
        ∧ ∀ h p, s.oldest part true = some h → Map.find? s.pages h = some p →
          100 * (s.shareFree part + s.shareComing part) < high * s.shareAll part →
          ∃ q, Map.find? t.pages h = some q ∧ q.state = .sealed ∧ q.tier = 1 ∧ q.loc = p.shadow))
  ∧ ∀ (s : State) (i : Nat) (r : Req), s.phase = .ready → s.quiet 21 = false → s.live i = some r → r.kind = .append → r.scanned = false →
    let v := retryAppend i r s
    (v.atCheck10 i = false → exec (.eviction i) s = .next v)
    ∧ (v.atCheck10 i = true → v.nextVictim (r.part.getD 0) = none → exec (.eviction i) s = .next v)
    ∧ ∀ (h : Nat) (p : Page), v.atCheck10 i = true → v.nextVictim (r.part.getD 0) = some h → Map.find? v.pages h = some p →
      ∃ u q, exec (.eviction i) s = .next (retryAppend i r u) ∧ Map.find? u.pages h = some q
        ∧ u.reg pgTier 0x080 = sat32 (v.reg pgTier 0x080) 1 ∧ bitOf (u.reg pgTier 0x010) 1 = true ∧ u.reqs = v.reqs
        ∧ (p.shadow = none → q.state = .absent ∧ q.blocks = 0)
        ∧ (p.shadow ≠ none → q.state = .sealed ∧ q.tier = 1 ∧ q.loc = p.shadow)

/-- Lending at the lender (R199 to R203): a grant gives whole MiB up to what is free, as a region of the Keeper, and is refused outside the lending
roles and FULL where nothing is free; a returned grant goes with its region, once nothing is in transit into it, unless it holds LENT pages,
which answers BUSY, and another owner's is refused; FETCH sends the bytes asked for and completes; a RECLAIM closes its grants to placements and holds an entry until its grace is over,
and then they go.
Where the spec leaves it to the model, its choices are those of log entries 26, 84 and 85. -/
def Obligations.LenderServes : Prop :=
  ∀ (s : State) (conn msg rk off node : Nat) (blk : Bytes), s.phase = .ready →
    let src : Src := .pft conn msg rk off
    let l := LendBlk.ofBlock blk
    let f := FetchBlk.ofBlock blk
    s.keeperPeer src = some node →
    (Takes s opLend → LendBlk.check1 blk = true → s.compCheck l.comp l.epoch none false = .pass false →
      (l.form = 0 → (s.role = 2 ∨ s.role = 3) → 0 < min l.count s.lendable' → Map.lowestFree s.pft.regions 1 < 65536 →
        ∃ t gid g r, exec (.lendGrantRequest src blk) s = .next t ∧ Map.find? s.tier.grantsOut gid = none
          ∧ Map.find? t.tier.grantsOut gid = some g ∧ g.owner = node ∧ g.mib = min l.count s.lendable' ∧ g.noPlace = false
          ∧ (∀ k, k ≠ gid → Map.find? t.tier.grantsOut k = Map.find? s.tier.grantsOut k)
          ∧ Map.find? t.pft.regions g.rkey = some r ∧ r.len = g.mib * 2 ^ 20 ∧ r.owner = 256 ∧ r.loc = 2
          ∧ t.done.head? = some (l.id, s.masterOf src, 0x00)
          ∧ Reports { s with tier := { s.tier with grantsOut := t.tier.grantsOut }, pft := { s.pft with regions := t.pft.regions } } t)
      ∧ (l.form = 0 → ((s.role ≠ 2 ∧ s.role ≠ 3) → ∃ t, exec (.lendGrantRequest src blk) s = .next t ∧ Committed s t src l.id 0x0C ∧ Reports s t)
          ∧ ((s.role = 2 ∨ s.role = 3) → s.lendable' = 0 →
              ∃ t, exec (.lendGrantRequest src blk) s = .next t ∧ Committed s t src l.id 0x04 ∧ Reports s t))
      ∧ ∀ g, l.form = 2 → Map.find? s.tier.grantsOut l.first = some g →
        (g.owner ≠ node → ∃ t, exec (.lendGrantReturn src blk) s = .next t ∧ Committed s t src l.id 0x0C ∧ Reports s t)
        ∧ (g.owner = node → (∀ kv ∈ s.reqs, kv.2.kind ≠ .lend) →
          let gone (t : State) : Prop := Map.find? t.tier.grantsOut l.first = none ∧ Map.find? t.pft.regions g.rkey = none
            ∧ Committed s t src l.id 0x00
          let waits (t : State) : Prop := Map.find? t.tier.grantsOut l.first = some g
            ∧ ∃ i r, Map.find? t.reqs i = some r ∧ r.kind = .lend ∧ r.id = l.id ∧ r.status = none
          let empty := ∀ r, Map.find? s.pft.regions g.rkey = some r → r.mem = []
          ∃ t, exec (.lendGrantReturn src blk) s = .next t
            ∧ (empty → s.inTransit g = false → gone t) ∧ (empty → s.inTransit g = true → waits t)
            ∧ ((Committed s t src l.id 0x03 ∧ Map.find? t.tier.grantsOut l.first = some g) ∨ (s.inTransit g = false ∧ gone t)
              ∨ (s.inTransit g = true ∧ waits t))))
    ∧ (∀ g r c, Takes s opFetch → blk.length = 64 → zerosAt blk 32 32 = true → f.grant ≠ 0xFFFFFFFE →
      Map.find? s.tier.grantsOut f.grant = some g → g.owner = node → 4096 * f.off + f.len ≤ g.mib * 2 ^ 20 →
      Map.find? s.pft.regions g.rkey = some r → Map.find? s.pft.conns conn = some c → c.state = .opened →
      ∃ t c' m, exec (.fetch src blk) s = .next t ∧ Map.find? t.pft.conns conn = some c' ∧ m.isWrite = true ∧ m.fin = true
        ∧ (∃ m2, c'.msgs = c.msgs ++ [m, m2] ∧ m2.isWrite = true ∧ m2.fin = true)
        ∧ t.done.head? = some (f.id, s.masterOf src, 0x00) ∧ Reports s t)
    ∧ (∀ (port fn qp cid addr len gid : Nat) (g : GrantOut),
      let host : Src := .host port fn qp cid addr len
      let grace := if leAt blk 12 2 = 0 then max 1 (s.field pgTier 0x048 0 10) else leAt blk 12 2
      Takes s opReclaim → blk.length = 64 → zerosAt blk 14 50 = true → leAt blk 12 2 ≤ 1000 → leAt blk 8 4 = gid → gid ≠ 0xFFFFFFFF →
      Map.find? s.tier.grantsOut gid = some g → s.tier.grantsOut.length = 1 →
      ∃ t i r, exec (.reclaim host blk) s = .next t ∧ Map.find? t.tier.grantsOut gid = some { g with noPlace := true }
        ∧ Map.find? t.reqs i = some r ∧ r.kind = .reclaim ∧ r.status = none ∧ r.deadline = some (s.time + 1000000 * grace) ∧ r.waits = [gid])
    ∧ ∀ i r, Map.find? s.reqs i = some r → r.kind = .reclaim → r.status = none → r.deadline.getD 0 ≤ s.time →
      ∃ t, exec (.reclaimGraceExpiry i) s = .next t ∧ (r.id, r.master, 0x00) ∈ t.done
        ∧ ∀ gid, gid ∈ r.waits → Map.find? t.tier.grantsOut gid = none

/-- Lending at the owner (R200, R203 to R205): a placement to HBM of a page in NAND starts its promotion, counts it as moved and, with STICKY,
sets the stream's flag; a notice marks the lender's grants and takes a lent page with a shadow down to it; and when the grace is over, no
reclaimed grant is left.
Where the spec leaves it to the model, its choices are those of log entry 85. -/
def Obligations.OwnerServes : Prop :=
  ∀ s : State, s.phase = .ready →
    (∀ (port fn qp cid addr len part h : Nat) (blk : Bytes) (p : Page) (st : Stream) (c : Conv),
      let src : Src := .host port fn qp cid addr len
      let l := LendBlk.ofBlock blk
      Takes s opLend → LendBlk.check1 blk = true → l.form = 1 → l.flag = 0 → l.count = 1 → s.authorise src (hTenant l.conv) 2 = some part →
      s.keyed part = true → s.heldConv l.conv = some c → s.outside c l.layer = false → s.compCheck l.comp l.epoch (some l.conv) true = .pass false →
      s.entryFree (some part) = true → s.duplicate (s.masterOf src) l.id = false → s.frozen l.conv = false → s.unified part = false →
      s.stream? l.conv l.layer = some st → Map.find? st.entries l.first = some h → Map.find? s.pages h = some p → p.state = .sealed →
      p.srcHeld = false → p.tier = 1 → blocksOf (storedBytes (s.pageGeo p) p.fmt) ≤ s.partFree p.part (s.bestRegion p.part) →
      ∃ t q, exec (.lendPlacement src blk) s = .next t ∧ Map.find? t.pages h = some q ∧ q.state = .migrating ∧ q.dest = 0
        ∧ q.loc = p.loc ∧ (∀ k, k ≠ h → Map.find? t.pages k = Map.find? s.pages k)
        ∧ (l.sticky = true → (t.stream? l.conv l.layer).map (·.flag) = some 0)
        ∧ (len ≠ 0 → .result port addr ((lendResult l.id 0x00 1 0 0).take len) ∈ t.out)
        ∧ t.done.head? = some (l.id, s.masterOf src, 0x00) ∧ Reports { s with pages := t.pages, streams := t.streams } t)
    ∧ (∀ lender grant graceMs : Nat,
      ∃ t, exec (.reclaimNotice lender grant graceMs) s = .next t ∧ bitOf (t.reg pgTier 0x010) 4 = true
        ∧ (∀ g ∈ t.tier.grantsIn, g.lender = lender → (grant = 0xFFFFFFFF ∨ g.grant = grant) →
            g.reclaim = true ∧ g.till = s.time + 1000000 * graceMs)
        ∧ ∀ h p x, Map.find? s.pages h = some p → p.movable = true → p.state = .lent → p.tier = 2 → p.lend = some x → x.lender = lender → x.grant = grant →
            (∃ g ∈ s.tier.grantsIn, g.lender = lender ∧ g.grant = grant) → p.shadow ≠ none → ∃ q, Map.find? t.pages h = some q ∧ q.state = .sealed ∧ q.tier = 1 ∧ q.loc = p.shadow)
    ∧ ∀ i : Nat, ∃ t, exec (.reclaimGraceExpiry i) s = .next t ∧ ∀ g ∈ t.tier.grantsIn, g.reclaim = true → s.time < g.till

/-! ## Faults and spares -/

/-- Lanes and pods (R13, R32, R338, R339, R342): a residue mismatch of a lane that accumulates counts, puts the lane to its self-test and has
its unit of the pod's page run again, on an idle spare lane or the first lane that becomes free, so that its result is in no partial; a lane that passes, with no fault in the last
24 hours, goes on, and any other is retired and the first spare lane becomes active; a second unit fault within 24 hours retires the pod, a first
one is noted; a pod fault stops the pod with no work left in it, and its self-test brings it back or retires it for the region's first spare pod.
Where the spec leaves it to the model, its choices are those of log entries 43 and 95. -/
def Obligations.LanesAndPods : Prop :=
  ∀ (s : State) (region pod : Nat), s.phase = .ready → region < 16 → pod < 28 → Map.find? s.res.armed (pgPod region pod) = none →
    let page := pgPod region pod
    let x := s.pod region pod
    let retired (t : State) : Prop := (t.pod region pod).st = 2 ∧ (t.pod region pod).stopped = false
      ∧ ∀ n rest, n ≠ pod → (List.range 28).filter (fun k => k ≠ pod ∧ (s.pod region k).st = 1) = n :: rest → (t.pod region n).st = 0
    (∀ lane, x.accumulates lane = false → exec (.residueMismatch region pod lane) s = .next s)
    ∧ (∀ lane, x.st = 0 → x.stopped = false → lane < 66 → (x.lane lane).testing = false → x.accumulates lane = true →
      ∃ t, exec (.residueMismatch region pod lane) s = .next t ∧ ((t.pod region pod).lane lane).testing = true
        ∧ (∀ k, k ≠ lane → (t.pod region pod).lane k = x.lane k) ∧ t.reg pgRes 0x080 = sat32 (s.reg pgRes 0x080) 1
        ∧ t.reg page 0x068 = sat32 (s.reg page 0x068) 1 ∧ bitOf (t.reg page 0x010) 0 = true
        ∧ (∀ y rest, x.passes = y :: rest → x.computing lane = true →
            ∃ z o, (t.pod region pod).passes = z :: rest ∧ (lane, o) ∈ z.rerun ∧ z.members = y.members
              ∧ ∀ l, o = some l → (x.lane l).st = 1 ∧ (x.lane l).testing = false ∧ x.computing l = false)
        ∧ Reports { (s.bump pgRes 0x080).bump page 0x068 with pods := t.pods } t)
    ∧ (∀ lane passed, (x.lane lane).testing = true → (x.lane lane).forced = false → (x.lane lane).st = 0 →
      ∃ t, exec (.laneSelfTestDone region pod lane passed) s = .next t ∧ ((t.pod region pod).lane lane).testing = false
        ∧ ((t.pod region pod).lane lane).faultAt = some s.time
        ∧ (passed = true ∧ s.within24 (x.lane lane).faultAt = false →
            ((t.pod region pod).lane lane).st = 0 ∧ ∀ k, k ≠ lane → (t.pod region pod).lane k = x.lane k)
        ∧ (passed = false ∨ s.within24 (x.lane lane).faultAt = true → ((t.pod region pod).lane lane).st = 2
            ∧ (∀ n rest, x.lanesIn 1 = n :: rest → ((t.pod region pod).lane n).st = 0) ∧ bitOf (t.reg page 0x010) 1 = true)
        ∧ Reports { s with pods := t.pods } t)
    ∧ (x.st = 0 →
      ∃ t, exec (.unitFault region pod) s = .next t ∧ t.reg pgRes 0x084 = sat32 (s.reg pgRes 0x084) 1
        ∧ (s.within24 x.unitFaultAt = false → t.pod region pod = { x with unitFaultAt := some s.time }
            ∧ Reports { (s.bump pgRes 0x084).bump page 0x06C with pods := t.pods } t)
        ∧ (s.within24 x.unitFaultAt = true → retired t))
    ∧ (x.st = 0 → x.stopped = false →
      ∃ t, exec (.podFault region pod) s = .next t ∧ (t.pod region pod).stopped = true ∧ (t.pod region pod).work = []
        ∧ t.reg pgRes 0x084 = sat32 (s.reg pgRes 0x084) 1 ∧ bitOf (t.reg page 0x010) 2 = true ∧ bitOf (t.reg pgRes 0x010) 1 = true)
    ∧ ∀ passed, x.stopped = true → x.forced = false →
      ∃ t, exec (.podSelfTestDone region pod passed) s = .next t
        ∧ (passed = true ∧ s.within24 x.podFaultAt = false →
            t.pod region pod = { x with stopped := false, podFaultAt := some s.time } ∧ { t with pods := s.pods } = s)
        ∧ (passed = false ∨ s.within24 x.podFaultAt = true → retired t)

/-- Memory faults (R311, R331 to R337, Table 14-1): an error confined to one symbol of a word is corrected; scrubbing counts what it read and
corrected, and reads HBM in its region's free slots; a corrected HBM burst counts and notes its row, and the third within 24 hours takes the row out of use for a reserve row; an
uncorrectable one is counted and damages the sealed page it struck, which goes to
its shadow, or, a CACHE page, to ABSENT; a tag that passes on the spare AES engine, or a failed known-answer test, makes the spare engine the active one,
and a tag that fails on both counts; SRAM faults drop what can be loaded again and mark a directory entry bad.
Where the spec leaves it to the model, its choices are those of log entries 45, 96, 139, 150 and 151. -/
def Obligations.MemoryFaults : Prop :=
  ∀ s : State, s.phase = .ready → s.res.armed = [] →
    (∀ k e, k < 36 → 0 < e → e < 256 → symbolsCorrected [(k, e)] = 1 ∧ beyondCode [(k, e)] = false)
    ∧ (∀ hbm loc bytes words page slot space, (words = [] ∨ (hbm = false ∧ loc / 2 ^ 32 ≠ 5 ∧ ∀ w ∈ words, beyondCode w = false)) →
      let fixed := (words.map symbolsCorrected).sum
      ∃ t, exec (.patrolScrub hbm loc bytes words ⟨page, slot, space⟩) s = .next t ∧ t.res = { s.res with scrubAt := s.time }
        ∧ t.cnt64 pgRes 0x0B0 = sat64 (s.cnt64 pgRes 0x0B0) bytes ∧ t.reg pgRes 0x088 = sat32 (s.reg pgRes 0x088) fixed
        ∧ (hbm = true →
            let page := pgRegn (rowRegion (loc % 2 ^ 40))
            t.cnt64 page 0x090 = sat64 (s.cnt64 page 0x090) bytes)
        ∧ (∀ r, { t.region r with arb := (s.region r).arb } = s.region r)
        ∧ (hbm = false → t.regions = s.regions ∧ t.links = s.links)
        ∧ Reports { s.bump pgRes 0x088 fixed with res := t.res, cnt := t.cnt, regions := t.regions, links := t.links } t)
    ∧ (∀ stack channel row errs page slot space, stack < 8 → symbolsCorrected errs = 1 →
        s.res.remapped.contains (rowKey stack channel row) = false →
      let key := rowKey stack channel row
      let recent := (Map.getD s.res.rowErrors key []).filter fun x => decide (s.time < x + 86400000000000)
      ∃ t, exec (.hbmEccError stack channel row errs page slot space) s = .next t
        ∧ t.reg (pgHbm stack) 0x050 = sat32 (s.reg (pgHbm stack) 0x050) 1 ∧ t.reg pgRes 0x088 = sat32 (s.reg pgRes 0x088) 1
        ∧ (recent.length < 2 → Map.find? t.res.rowErrors key = some (s.time :: recent) ∧ t.res.remapped = s.res.remapped)
        ∧ (2 ≤ recent.length → s.reserveUsed stack + Config.rowBlocks ≤ 131072 → t.res.remapped = s.res.remapped ++ [key]
            ∧ bitOf (t.reg (pgHbm stack) 0x010) 0 = true)
        ∧ (recent.length < 2 ∨ s.reserveUsed stack + Config.rowBlocks ≤ 131072 → t.pages = s.pages))
    ∧ (∀ stack channel row errs page slot space p, stack < 8 → beyondCode errs = true → space ≠ 4 → Map.find? s.pages page = some p → p.state = .sealed → p.tier = 0 →
        p.hbmBlocks ≠ 0 → (∀ kv ∈ s.reqs, ∀ it ∈ kv.2.items, it.page ≠ page) → p.holders = 0 → (p.shadow ≠ none ∨ p.retained = false) →
      ∃ t q, exec (.hbmEccError stack channel row errs page slot space) s = .next t ∧ Map.find? t.pages page = some q
        ∧ (p.shadow ≠ none → q.state = .sealed ∧ q.tier = 1 ∧ q.loc = p.shadow) ∧ (p.shadow = none → q.state = .absent)
        ∧ q.blocks = 0 ∧ t.reg (pgHbm stack) 0x054 = sat32 (s.reg (pgHbm stack) 0x054) 1 ∧ t.reg pgRes 0x08C = sat32 (s.reg pgRes 0x08C) 1
        ∧ t.reg pgRes 0x09C = sat32 (s.reg pgRes 0x09C) 1 ∧ bitOf (t.reg pgRes 0x010) 7 = true)
    ∧ (∀ h unit space req p, Map.find? s.pages h = some p → (s.region p.region).aesSpare = true →
      ∃ t, exec (.tagFail h unit space req true) s = .next t ∧ (t.region p.region).aesSpare = false
        ∧ (t.region p.region).aesActive = 1 - (s.region p.region).aesActive ∧ bitOf (t.reg (pgRegn p.region) 0x010) 2 = true
        ∧ Reports { s with regions := t.regions } t)
    ∧ (∀ h unit space req p, Map.find? s.pages h = some p →
      ∃ t, exec (.tagFail h unit space req false) s = .next t ∧ t.reg pgSec 0x05C = sat32 (s.reg pgSec 0x05C) 1
        ∧ bitOf (t.reg pgSec 0x010) 3 = true)
    ∧ (∀ region, region < 16 → exec (.aesKnownAnswerTest region true []) s = .next s
      ∧ ((s.region region).aesSpare = true → ∃ t, exec (.aesKnownAnswerTest region false []) s = .next t
        ∧ (t.region region).aesSpare = false ∧ (t.region region).aesActive = 1 - (s.region region).aesActive
        ∧ Reports { s with regions := t.regions } t))
    ∧ ∀ loc errs, (∀ kind, kind ≠ 5 → symbolsCorrected errs = 1 → exec (.sramUncorr ⟨kind, loc⟩ errs) s = .next (s.bump pgRes 0x088))
      ∧ (beyondCode errs = true → exec (.sramUncorr ⟨0, loc⟩ errs) s = .next (s.bump pgRes 0x08C)
        ∧ ∃ t, exec (.sramUncorr ⟨1, loc⟩ errs) s = .next t ∧ (t.pod (loc / 28) (loc % 28)).cache = []
        ∧ Reports { s.bump pgRes 0x08C with pods := t.pods } t)
      ∧ ∃ t, exec (.sramUncorr ⟨5, loc⟩ errs) s = .next t ∧ (∀ e, Map.find? s.mex.dir loc = some e → Map.find? t.mex.dir loc = some { e with bad := true })
        ∧ { t with mex := s.mex } = s

/-- Paths, links, the Keeper, watchdogs and margins (R20, R334, R340, R341, R343, R353): up to four resends are counted, and a path that needs more takes its region out of
service; a die-to-die word is resent until it is not uncorrectable, and its resends and corrected symbols are counted; a die-to-die module loses a lane to a spare, and beyond the spares the die's four regions; a Keeper pair that disagrees is replaced by the
spare, then one pair goes on, then the node stops; a watchdog counts its reset; and a margin below its threshold raises its record once.
Where the spec leaves it to the model, its choices are those of log entries 50 and 95. -/
def Obligations.PathsAndMargins : Prop :=
  ∀ s : State, s.phase = .ready → s.res.armed = [] →
    (∀ network loc words, network < 3 → loc < 4 →
      let tries := (words.takeWhile beyondCode).length
      (tries ≤ 4 → exec (.flitError network loc words) s = .next (s.bump pgRes 0x090 tries))
      ∧ (4 < tries → s.res.failedPaths.contains (network * 65536 + loc) = false →
        ∃ t, exec (.flitError network loc words) s = .next t ∧ t.res.failedPaths = s.res.failedPaths ++ [network * 65536 + loc]
          ∧ t.reg pgRes 0x090 = sat32 (s.reg pgRes 0x090) 4 ∧ (network = 0 → (t.region loc).retired = true)
          ∧ (network = 1 → ∀ k, k < 4 → (t.region (4 * loc + k)).retired = true) ∧ (network = 2 → t.phase = .stopped)))
    ∧ (∀ loc words, loc < 4 →
      let resent := (words.takeWhile beyondCode).length
      let fixed := match (words.drop resent).head? with | some w => symbolsCorrected w | none => 0
      exec (.flitError 3 loc words) s
        = .next (((s.bump (pgDie loc) 0x054 resent).bump (pgDie loc) 0x050 fixed).bump pgRes 0x090 resent))
    ∧ (∀ die module, die < 4 → module < 4 →
      let used := s.field (pgDie die) 0x048 (4 * module) 3
      (used < 4 → ∃ t, exec (.d2dRepair die module) s = .next t ∧ t.field (pgDie die) 0x048 (4 * module) 3 = used + 1
          ∧ t.reg (pgDie die) 0x058 = sat32 (s.reg (pgDie die) 0x058) 1
          ∧ Reports ((s.setField (pgDie die) 0x048 (4 * module) 3 (used + 1)).bump (pgDie die) 0x058) t)
      ∧ (4 ≤ used → ∃ t, exec (.d2dRepair die module) s = .next t ∧ ∀ k, k < 4 → (t.region (4 * die + k)).retired = true))
    ∧ (∀ pair, ∃ t, exec (.keeperFault pair) s = .next t
      ∧ (s.res.keeperSpare = true → t.res.keeperSpare = false ∧ t.res.keeperPairs = s.res.keeperPairs ∧ t.phase = .ready)
      ∧ (s.res.keeperSpare = false → 1 < s.res.keeperPairs → t.res.keeperPairs = 1 ∧ t.phase = .ready)
      ∧ (s.res.keeperSpare = false → s.res.keeperPairs ≤ 1 → t.phase = .stopped))
    ∧ (∀ block region, block < 5 → region < 16 →
      ∃ t, exec (.watchdog block region) s = .next t ∧ t.reg pgRes 0x094 = sat32 (s.reg pgRes 0x094) 1 ∧ bitOf (t.reg pgRes 0x010) 8 = true)
    ∧ ∀ kind index value, kind ≤ 4 → index < 256 → value < 65536 → value < s.field pgRes 0x060 0 16 kind →
        Map.find? s.res.marginRaised (kind * 65536 + index) = none →
      ∃ t, exec (.margin kind index value) s = .next t ∧ t.field pgRes 0x064 0 16 (kind * 256 + index) = value
        ∧ Map.find? t.res.marginRaised (kind * 65536 + index) = some 0 ∧ t.reg pgRes 0x098 = sat32 (s.reg pgRes 0x098) 1
        ∧ bitOf (t.reg pgRes 0x010) 4 = true

/-! ## Queries -/

/-- QUERY (R60, R61, R81): a block that breaks Table 3-1 ends INVALID_MODE, one without the right DENIED; one that passes every check with an
ABSENT page in its mask ends ABSENT, one with no page to read ends OK at once, and any other is accepted: a new request entry binds the
resident version, the deadline and the pages it will read, each of which it holds as a reader.
Where the spec leaves it to the model, its choices are those of log entries 66, 68 and 108. -/
def Obligations.QueriesStart : Prop :=
  ∀ (s : State) (src : Src) (blk : Bytes),
    let q := Query.ofBlock blk
    (Takes s opQuery → Query.check1 blk = false → ∃ t, exec (.query src blk) s = .next t ∧ Committed s t src q.id 0x0C ∧ Reports s t)
    ∧ (Takes s opQuery → Query.check1 blk = true → s.authorise src (hTenant q.conv) 1 = none →
      ∃ t, exec (.query src blk) s = .next t ∧ Committed s t src q.id 0x08 ∧ t.reg pgAcc 0x070 = sat32 (s.reg pgAcc 0x070) 1 ∧ Reports s t)
    ∧ ∀ part c n slot, Admits s src opQuery q.id (hTenant q.conv) 1 q.comp q.epoch (some q.conv) true part → Query.check1 blk = true →
      s.heldConv q.conv = some c → s.resident c.profile = some (n, slot) →
      let g := Geo.ofImage slot.img
      let pages := (s.rangePages q).filter fun x => x.2.2.state != .absent && !x.2.2.refill
      q.layer < g.layers → blk.length = q.fullLen g → pathOk q.path g slot.img = true → selPermitted q slot.img = true → s.maskOk q = true →
      (∀ e es, s.absentEntries q blk = e :: es → ∃ t, exec (.query src blk) s = .next t ∧ Committed s t src q.id 0x01 ∧ Reports s t)
      ∧ (s.absentEntries q blk = [] → bindItems q g pages = [] →
        ∃ t, exec (.query src blk) s = .next t ∧ Committed s t src q.id 0x00)
      ∧ (s.absentEntries q blk = [] → bindItems q g pages ≠ [] →
        ∃ t r, exec (.query src blk) s = .next t ∧ Map.find? t.reqs s.nextReq = some r ∧ t.nextReq = s.nextReq + 1
          ∧ r.kind = .query ∧ r.id = q.id ∧ r.status = none ∧ r.profile = c.profile ∧ r.version = slot.ver ∧ r.items = bindItems q g pages
          ∧ r.deadline = (if q.deadline = 0 then none else some (s.time + 1000 * q.deadline))
          ∧ (∀ x ∈ pages, ∃ p, Map.find? t.pages x.2.1 = some p ∧ s.nextReq ∈ p.readers ∧ p.state = x.2.2.state ∧ p.rows = x.2.2.rows)
          ∧ (∀ i, i ≠ s.nextReq → Map.find? t.reqs i = Map.find? s.reqs i)
          ∧ Reports { s with reqs := t.reqs, nextReq := t.nextReq, pages := t.pages } t)

/-- Sketches and selection (R76 to R80, R140): the store takes up the next missing sketch of a region; a scan fixes the selection once, and with a
page of the sink that attends a slot it leaves out no page of the sink or of the window and goes on.
The work of a query (R15, R18, R50, R62, R66, R84 to R86): a page in HBM with no attended slot is done at once; one that may not be held goes
to the pod that R18 chooses, as one more page of it, which holds it and its state; one that may be held starts a group; a group whose time is
over goes to a pod if its pages still lie where they were held, and is dispatched again if not; and a page's work that completes joins the
running partials of its set in the pod, gives up the page buffer and counts its units, and with the set's last page the anchor hands the
set's partial over and frees the set.
Where the spec leaves it to the model, its choices are those of log entries 107, 116 and 151. -/
def Obligations.QueryWork : Prop :=
  (∀ s : State, s.phase = .ready →
     (∀ region h, s.quiet region = false → s.missingSketch region = some h →
       ∃ t, exec (.sketchLoad region) s = .next t
         ∧ (∀ p, Map.find? s.pages h = some p → Map.find? t.pages h = some { p with sketchHeld := true })
         ∧ (∀ k, k ≠ h → Map.find? t.pages k = Map.find? s.pages k) ∧ { t with pages := s.pages } = s)
     ∧ ∀ i r it p, Map.find? s.reqs i = some r → r.kind = .query → r.scanned = false → r.status = none →
       let q := Query.ofBlock r.blk
       (∀ x ∈ r.items, x.state = .waiting) → it ∈ r.items → it.entry < q.sink → Map.find? s.pages it.page = some p →
       s.attended q r.blk it.entry p.fill ≠ [] →
       ∃ t r', exec (.sketchScan i) s = .next t ∧ Map.find? t.reqs i = some r' ∧ r'.scanned = true ∧ r'.status = none ∧ it ∈ r'.items
         ∧ r'.items.length = r.items.length
         ∧ (∀ x ∈ r'.items, x.state = .omitted → q.sink ≤ x.entry ∧ x.entry + q.window ≤ q.lastEntry)
         ∧ (∀ k, k ≠ i → Map.find? t.reqs k = Map.find? s.reqs k) ∧ Reports { s with reqs := t.reqs, cnt := t.cnt } t)
  ∧ (∀ (s : State) (i k : Nat) (r : Req) (it : Item) (p : Page), s.phase = .ready → Map.find? s.reqs i = some r → r.status = none →
       r.kind = .query → r.items[k]? = some it → Map.find? s.pages it.page = some p →
       let q := Query.ofBlock r.blk
       (r.scanned = true → it.state = .waiting → p.tier = 0 → p.state = .sealed → p.restoring = false → s.quiet p.lastRegion = false →
         let u := updItem i k (fun x => { x with streamed := false }) (moveItem i k p.lastRegion (seeMask i it.entry s))
         let slots := s.itemSlots r it p.fill
         (slots = [] → ∃ t r' x, exec (.pageDispatch i k) s = .next t ∧ Map.find? t.reqs i = some r' ∧ r'.items[k]? = some x
             ∧ x.state = .done ∧ x.fill = 0 ∧ x.region = p.lastRegion
             ∧ Reports { s with reqs := t.reqs, pods := t.pods, cnt := t.cnt } t)
         ∧ (∀ pod, slots ≠ [] → u.mayHold p.lastRegion r = false →
           u.choosePod p.lastRegion r.part r.profile r.version (u.podFits [(i, k)]) = some pod →
           ∃ t r' x y, exec (.pageDispatch i k) s = .next t ∧ Map.find? t.reqs i = some r' ∧ r'.items[k]? = some x ∧ x.state = .queued
             ∧ x.pod = pod ∧ x.region = p.lastRegion ∧ x.fill = p.fill ∧ y ∈ (t.pod p.lastRegion pod).passes ∧ y.members = [(i, k)]
             ∧ y.page = it.page ∧ y.units = x.units ∧ (t.pod p.lastRegion pod).hasSet i it.set = true
             ∧ ((Map.find? t.pages it.page).map (·.holders)) = some (p.holders + 1)
             ∧ t.cnt64 (pgRegn p.lastRegion) 0x0A0 = sat64 (s.cnt64 (pgRegn p.lastRegion) 0x0A0) 1)
         ∧ (slots ≠ [] → u.mayHold p.lastRegion r = true → (s.region p.lastRegion).groups = [] →
           ∃ t r' x g, exec (.pageDispatch i k) s = .next t ∧ Map.find? t.reqs i = some r' ∧ r'.items[k]? = some x ∧ x.state = .held
             ∧ x.heldAt = s.time ∧ (t.region p.lastRegion).groups = [g] ∧ g.members = [(i, k)] ∧ g.page = it.page ∧ g.since = s.time))
       ∧ (∀ region g, s.quiet region = false → (s.region region).groups.find? (fun x => x.id == g.id) = some g →
         (s.time < g.since + 100 * s.field (pgRegn region) 0x04C 0 8 → exec (.gatherRelease region g.id) s = .next s)
         ∧ (g.since + 100 * s.field (pgRegn region) 0x04C 0 8 ≤ s.time →
           (∀ u, (∀ m ∈ g.members, s.stillThere region m = true) → assign region g.members s = some u →
             ∃ t, exec (.gatherRelease region g.id) s = .next t ∧ (∀ x ∈ (t.region region).groups, x.id ≠ g.id)
               ∧ { t with regions := u.regions } = u)
           ∧ ((∃ m ∈ g.members, s.stillThere region m = false) →
             ∃ t, exec (.gatherRelease region g.id) s = .next t ∧ (∀ x ∈ (t.region region).groups, x.id ≠ g.id)
               ∧ (∀ m r' x, m ∈ g.members → Map.find? t.reqs m.1 = some r' → r'.items[m.2]? = some x → x.state = .waiting)
               ∧ { t with reqs := s.reqs, regions := s.regions } = s)))
       ∧ ∀ region pod y, s.quiet region = false → it.region = region → (s.pod region pod).passes = [y] → y.members = [(i, k)] →
         (s.pod region pod).workers ≠ [] → (s.pod region pod).hasSet i it.set = true → Kept s →
         let acc := s.itemPartials r it p ((s.pod region pod).partialOf i it.set)
         ∃ t r' x, exec (.workUnitComplete region pod i k) s = .next t ∧ Map.find? t.reqs i = some r' ∧ r'.items[k]? = some x
           ∧ x.state = .done ∧ (t.pod region pod).work = [] ∧ ((Map.find? t.pages it.page).map (·.holders)) = some (p.holders - 1)
           ∧ (q.path ≠ 0 → t.cnt64 (pgPod region pod) 0x070 = sat64 (s.cnt64 (pgPod region pod) 0x070) it.units)
           ∧ ((∃ (j : Nat) (z : Item), j ≠ k ∧ r.items[j]? = some z ∧ z.region = region ∧ z.set = it.set ∧ z.state = .waiting) →
               (t.pod region pod).partialOf i it.set = acc ∧ r'.accs = r.accs)
           ∧ ((∀ (j : Nat) (z : Item), j ≠ k → r.items[j]? = some z → z.region = region → z.set = it.set → z.state = .done ∨ z.state = .omitted) →
               s.anchorOf region i it.set = some pod → (∀ n, n ≠ pod → (s.pod region n).hasSet i it.set = false) →
               r'.accs = Map.insert r.accs region (mergeMaps (Map.getD r.accs region []) (s.setPartial r acc))
                 ∧ x.handed = true ∧ (t.pod region pod).hasSet i it.set = false))

/-- The end of a query (R156, R159): a region's partial, all its pages done, is combined once, and with every region's the query commits OK; a deadline
that passes before the commit point commits DEADLINE. -/
def Obligations.QueriesEnd : Prop :=
  ∀ (s : State) (i : Nat) (r : Req), s.phase = .ready → Map.find? s.reqs i = some r → r.status = none → r.kind = .query →
    (∀ region, s.quiet 16 = false → s.quiet region = false → r.scanned = true → r.arrived.contains region = false →
      (∃ x ∈ r.items, x.region = region ∧ x.state ≠ .omitted) → (∀ x ∈ r.items, x.region = region → x.state = .omitted ∨ x.state = .done) →
      ((∀ k ∈ r.regions, k = region ∨ r.arrived.contains k = true) →
        ∃ t, exec (.regionPartial i region) s = .next t ∧ t.done.head? = some (r.id, r.master, 0x00))
      ∧ ((∃ k ∈ r.regions, k ≠ region ∧ r.arrived.contains k = false) →
        ∃ t r', exec (.regionPartial i region) s = .next t ∧ Map.find? t.reqs i = some r' ∧ r'.status = none
          ∧ r'.arrived = r.arrived ++ [region] ∧ r'.combined = mergeMaps r.combined (Map.getD r.accs region [])
          ∧ (∀ k, k ≠ i → Map.find? t.reqs k = Map.find? s.reqs k)
          ∧ Reports { s with reqs := t.reqs, links := t.links, cnt := t.cnt } t))
    ∧ ∀ d, r.deadline = some d → d ≤ s.time →
      ∃ t, exec (.deadlineExpiry i) s = .next t ∧ t.done.head? = some (r.id, r.master, 0x0A)

/-! ## APPEND, SEAL, ABORT and MERGE -/

/-- APPEND and SEAL are accepted (R43, R121 to R123, R133, R142, R143): tokens that fit in the open page take the next slots of their stream, and the
request waits for their completion; mask data completes at once, in its segments and nowhere else; a SEAL triggers the seal of the open
page, moves the stream on to its next entry, and waits for the page.
Where the spec leaves it to the model, its choices are those of log entries 112 and 156. -/
def Obligations.AppendsAndSealsStart : Prop :=
  ∀ (s : State) (src : Src) (blk : Bytes),
    (let a := AppendBlk.ofBlock blk
     (∀ part c n slot st, Admits s src opAppend a.id (hTenant a.handle) 2 a.comp a.epoch (some a.handle) true part →
      AppendBlk.check1 blk = true → a.mask = false → a.creating = false → s.heldConv a.handle = some c → c.readOnly = false →
      s.streamWaits a.handle a.layer = false → s.resident c.profile = some (n, slot) → a.layer < (Geo.ofImage slot.img).layers →
      blk.length = 64 + a.count * (Geo.ofImage slot.img).channels * dataBytes a.dfmt → a.at_ = 0 →
      s.stream? a.handle a.layer = some st → st.next % 256 ≠ 0 → 1 ≤ a.count → st.next % 256 + a.count ≤ 256 → st.next + a.count ≤ 2 ^ 24 →
      s.lossRefuses (some st) part = false →
      ∃ t r st', exec (.append src blk) s = .next t ∧ Map.find? t.reqs s.nextReq = some r ∧ r.kind = .append ∧ r.id = a.id
        ∧ r.status = none ∧ r.firstSlot = st.next ∧ r.version = slot.ver ∧ t.stream? a.handle a.layer = some st'
        ∧ st'.next = nextAfter st.next a.count a.sealAfter ∧ st'.entries = st.entries
        ∧ Reports { s with reqs := t.reqs, nextReq := s.nextReq + 1, streams := t.streams } t)
     ∧ ∀ part m, Admits s src opAppend a.id (hTenant a.handle) 2 a.comp a.epoch (some a.handle) true part → AppendBlk.check1 blk = true →
      a.mask = true → a.creating = false → Map.find? s.masks a.handle = some m → m.part = part → m.deleted = false →
      a.first / 8 + a.count * 32 ≤ m.len * 32 → a.first % 256 = 0 →
      ∃ t m', exec (.appendMask src blk) s = .next t ∧ Map.find? t.masks a.handle = some m' ∧ m'.writes = m.writes + 1
        ∧ (∀ k, k < a.count → (Map.find? m'.segs (a.first / 256 + k)).getD (zeros 32) = slice (blk.drop 64) (32 * k) 32)
        ∧ (∀ k, (k < a.first / 256 ∨ a.first / 256 + a.count ≤ k) → Map.find? m'.segs k = Map.find? m.segs k)
        ∧ Committed s t src a.id 0x00 ∧ Reports { s with masks := t.masks, sec := (writeMeta m.part 3 a.handle s).sec } t)
    ∧ (let b := SealBlk.ofBlock blk
       ∀ part c n slot st, Admits s src opSeal b.id (hTenant b.conv) 2 b.comp b.epoch (some b.conv) true part → SealBlk.check1 blk = true →
        s.heldConv b.conv = some c → c.readOnly = false → s.resident c.profile = some (n, slot) → b.layer < (Geo.ofImage slot.img).layers →
        b.all = false → s.streamWaits b.conv b.layer = false → s.stream? b.conv b.layer = some st →
        let pages := s.sealPages b.conv b.layer
        ∃ t st', exec (.seal src blk) s = .next t ∧ t.stream? b.conv b.layer = some st' ∧ st'.next = roundUp st.next 256
          ∧ (pages = [] → Committed s t src b.id 0x00)
          ∧ (pages ≠ [] → (∀ h ∈ pages, (Map.find? t.pages h).map (·.sealing) = some true)
              ∧ ∃ r, Map.find? t.reqs s.nextReq = some r ∧ r.kind = .seal ∧ r.status = none ∧ r.waits = pages
              ∧ Reports { s with reqs := t.reqs, nextReq := s.nextReq + 1, streams := t.streams, pages := t.pages } t))

/-- APPEND, SEAL and ABORT end (R29 to R31, R47, R50, R124, R126, R135, R159, R160): the slots of an APPEND are counted in its page, whose PGEN rises by
one, and it commits OK; the seal sequence makes an ARRIVAL page SEALED, with its rows as they are and a sketch, and then completes the SEALs,
places the page and completes the INSERTs that waited; a sealed page's tail goes once nothing holds it; an ABORT of a QUERY or SEAL that runs
commits it ABORTED, and one of a request not known changes nothing.
Where the spec leaves it to the model, its choices are those of log entries 21, 31 and 112. -/
def Obligations.AppendsAndSealsEnd : Prop :=
  ∀ (s : State) (i h : Nat) (r : Req) (p : Page), s.phase = .ready → Map.find? s.pages h = some p →
    (Map.find? s.reqs i = some r → r.status = none → r.kind = .append → r.scanned = true → r.gathered = false → s.earlierAppend i r = false →
      let a := AppendBlk.ofBlock r.blk
      ∀ pods st, s.stream? r.conv r.layer = some st → st.mstate ≠ 2 → Map.find? st.entries (r.firstSlot / 256) = some h → 1 ≤ a.count →
        r.firstSlot % 256 + a.count ≤ 256 → s.appendPods r [r.firstSlot / 256] = some pods → Kept s →
        ∃ t q, exec (.appendComplete i) s = .next t ∧ t.done.head? = some (r.id, r.master, 0x00) ∧ Map.find? t.pages h = some q
          ∧ q.fill = max p.fill (r.firstSlot % 256 + a.count) ∧ q.pgen = p.pgen + 1 ∧ q.state = p.state ∧ q.shares = p.shares)
    ∧ (∀ c pod, p.state = .opened → p.sealing = true → p.restoring = false → p.hold = false → Map.find? s.convs p.conv = some c → c.deleting = false →
      s.unwritten p = false →
      s.choosePod p.region (some p.part) p.profile (match s.resident p.profile with | some x => x.2.ver | none => p.version)
        (fun _ => true) = some pod →
      ∃ t u q, exec (.sealSequence h true) s = .next t ∧ t = wakeInserts h (placeSealed h (sealDone h u)) ∧ Map.find? u.pages h = some q
        ∧ q.state = .sealed ∧ q.sealing = false ∧ q.refill = false ∧ q.sealTime = s.time ∧ q.rows = p.rows ∧ q.pgen = p.pgen
        ∧ q.sketch = buildSketch (Geo.ofImage (s.image p.profile p.version)) p.fmt p.evar p.params p.rows)
    ∧ (p.state ≠ .opened → p.tailBlocks ≠ 0 → p.holders = 0 →
      (∀ kv ∈ s.reqs, kv.2.status = none → ∀ x ∈ kv.2.items, x.page = h → x.opened = false) →
      ∃ t, exec (.tailRelease h) s = .next t ∧ Map.find? t.pages h = some { p with tail := [], tailBlocks := 0 }
        ∧ (∀ k, k ≠ h → Map.find? t.pages k = Map.find? s.pages k) ∧ { t with pages := s.pages } = s)
    ∧ ∀ (src : Src) (blk : Bytes), Takes s opAbort → blk.length = 64 → zerosAt blk 16 48 = true →
      let mine (x : Req) : Prop := x.kind ≠ .profile ∧ x.master = s.masterOf src ∧ x.id = leAt blk 8 8
      (s.reqs = [(i, r)] → mine r → r.status = none → (r.kind = .query ∨ r.kind = .seal) →
        ∃ t, exec (.abort src blk) s = .next t ∧ t.done.head? = some (r.id, r.master, 0x06))
      ∧ ((∀ kv ∈ s.reqs, ¬mine kv.2) → (∀ d ∈ s.done, ¬(d.1 = leAt blk 8 8 ∧ d.2.1 = s.masterOf src)) →
        ∃ t, exec (.abort src blk) s = .next t ∧ t.done = s.done ∧ Reports s t)

/-- MERGE (R148 to R157, Table 6-3): one that passes every check holds an entry with its contributions and its merge pods until its deadline; a
contribution to another node goes out over the partition's OPEN connection with a region for its result, and without enough time left ends the
MERGE with DEADLINE; a result that is not OK ends it with that status, an OK one of another shape than
the first's with INVALID_MODE, and the last OK one commits it; FINAL binds the version in force at the acceptance (R100).
Where the spec leaves it to the model, its choices are those of log entries 24, 32, 33, 111 and 130. -/
def Obligations.MergesRun : Prop :=
  (∀ (s : State) (src : Src) (blk : Bytes) (part region : Nat) (pods : List Nat),
    let m := MergeBlk.ofBlock blk
    Takes s opMerge → mergeCheck1 2 blk = true → s.srcPart src = some part → s.partActive part = true →
    s.compCheck m.comp m.epoch none false = .pass false → (s.role = 1 ∨ s.role = 3) →
    (m.final = true → (s.resident m.profile).isSome = true ∧ s.prof.deleting.contains m.profile = false) →
    s.duplicate (s.masterOf src) m.id = false → s.entryFree (some part) = true →
    s.mergeFor part (mergeShares m.qtok 128 256) = some (region, pods) →
    ∃ t r, exec (.merge src blk) s = .next t ∧ Map.find? t.reqs s.nextReq = some r ∧ r.kind = .merge ∧ r.id = m.id ∧ r.status = none
      ∧ r.contribs = contributionsOf blk ∧ r.deadline = some (s.time + 1000 * m.deadline) ∧ r.mergeRegion = region ∧ r.mergePods = pods
      ∧ (∀ n x, m.final = true → s.resident m.profile = some (n, x) → r.profile = m.profile ∧ r.version = x.ver)
      ∧ Reports { s with reqs := t.reqs, nextReq := s.nextReq + 1, pods := t.pods } t)
  ∧ ∀ (s : State) (i k : Nat) (r : Req) (c : Contribution) (d : Nat), s.phase = .ready → Map.find? s.reqs i = some r → r.status = none →
    r.kind = .merge → r.contribs[k]? = some c → r.deadline = some d →
    let m := MergeBlk.ofBlock r.blk
    (c.state = 0 → s.remaining d < m.margin + 1 → (∀ x ∈ r.contribs, x.state ≠ 1) →
      ∃ t, exec (.contributionIssue i k) s = .next t ∧ t.done.head? = some (r.id, r.master, 0x0A))
    ∧ (∀ part conn, c.state = 0 → m.margin + 1 ≤ s.remaining d → c.node ≠ s.nodeId → r.part = some part → s.partConn part c.node = some conn →
      Map.lowestFree s.pft.regions 1 < 65536 →
      ∃ t r' idx g, exec (.contributionIssue i k) s = .next t ∧ Map.find? t.reqs i = some r' ∧ r'.status = none
        ∧ r'.contribs[k]? = some { c with state := 1, link := conn, rkey := idx } ∧ Map.find? s.pft.regions idx = none
        ∧ Map.find? t.pft.regions idx = some g ∧ g.owner = part ∧ g.loc = 2
        ∧ Reports { s with reqs := t.reqs, pft := { s.pft with regions := t.pft.regions } } t)
    ∧ ∀ b, c.state = 1 → c.got = some b →
      let h := ResultHeader.ofBlock b
      (1 ≤ h.status → h.status ≤ 12 → (∀ j x, j ≠ k → r.contribs[j]? = some x → x.state ≠ 1) →
        ∃ t, exec (.contributionResult i k) s = .next t ∧ t.done.head? = some (r.id, r.master, h.status))
      ∧ (h.status = 0 → (∃ x ∈ r.contribs, x.state = 2) → (∀ j x, j ≠ k → r.contribs[j]? = some x → x.state ≠ 1) →
          ¬(h.qtok = r.tokens ∧ h.heads = r.heads ∧ h.dv = r.dv) →
          ∃ t, exec (.contributionResult i k) s = .next t ∧ t.done.head? = some (r.id, r.master, 0x0C))
      ∧ (h.status = 0 → ((∀ x ∈ r.contribs, x.state ≠ 2) ∨ (h.qtok = r.tokens ∧ h.heads = r.heads ∧ h.dv = r.dv)) →
        ((∀ j x, j ≠ k → r.contribs[j]? = some x → x.state = 2) →
          ∃ t, exec (.contributionResult i k) s = .next t ∧ t.done.head? = some (r.id, r.master, 0x00))
        ∧ (∀ j x, j ≠ k → r.contribs[j]? = some x → x.state ≠ 2 →
          ∃ t r', exec (.contributionResult i k) s = .next t ∧ Map.find? t.reqs i = some r' ∧ r'.status = none
            ∧ r'.contribs[k]? = some { c with state := 2 } ∧ r'.heads = h.heads ∧ r'.dv = h.dv ∧ r'.tokens = h.qtok
            ∧ r'.combined = mergeIn b m.wire16 h r.combined))

/-! ## The match engine and profiles -/

/-- LOOKUP (R42, R44, R54, R55, R169 to R174): FORM 0 returns the descriptors of the range it names and changes nothing; a search names only
entries of the partition searched, of its tenant and its profile; and ATTACH of one verified hit puts its page at the stream's next entry
with one share more, and completes once the mirror has sent what it attached; an ATTACH that creates its conversation leaves it held. Where
the command came from a host, the result block goes to its result area.
Where the spec leaves it to the model, its choices are those of log entries 110, 138, 140 and 142. -/
def Obligations.LookupsAnswer : Prop :=
  (∀ (q : Search) (s : State) (i : Nat) (k : KeyRec), (i, k) ∈ (search q s).1.hits →
    (∃ e, Map.find? s.mex.dir i = some e ∧ e.part = q.part ∧ e.ptr = k.ptr) ∧ Map.find? s.mex.keys i = some k ∧ k.tenant = q.tenant
      ∧ k.profile = q.profile)
  ∧ ∀ (s : State) (src : Src) (part : Nat) (blk : Bytes),
    let l := LookupBlk.ofBlock blk
    let q : Search := { part, tenant := s.tenantOf part, profile := l.profile, layer := l.layer, kind := l.kind,
                        phash := slice blk 64 21, sigmask := l.sigmask, maxhits := l.maxhits }
    let f := search q s
    let shown (res : Bytes) (t : State) : Prop := ∀ port fn qp cid addr len, src = .host port fn qp cid addr len → len ≠ 0 →
      .result port addr (res.take len) ∈ t.out
    LookupBlk.check1 blk = true →
    (∀ c, Admits s src opLookup l.id (hTenant l.conv) 1 l.comp l.epoch (some l.conv) true part → s.heldConv l.conv = some c → l.form = 0 →
      s.outside c l.layer = false →
      let one (e : Nat) : Bytes := match s.pageAt l.conv l.layer e with | some x => s.descriptor x.1 x.2 | none => zeros 16
      ∃ t, exec (.lookupDescriptors src blk) s = .next t ∧ Committed s t src l.id 0x00 ∧ Reports s t
        ∧ shown (lookupHeader l.id 0x00 false false l.count 0 l.conv ++ (List.range l.count).flatMap fun k => one (l.first + k)) t)
    ∧ (Takes s opLookup → l.form = 1 → l.attach = false → s.searchPart src l = some part → s.partActive part = true →
      1 ≤ s.right (s.masterOf src) (partTarget part) → s.keyed part = true → s.compCheck l.comp l.epoch none false = .pass false →
      s.sweepOk src l = true → s.entryFree (some part) = true → s.duplicate (s.masterOf src) l.id = false →
      ∃ (t : State) (recs : List Bytes), exec (.lookupSearch src blk) s = .next t ∧ Committed s t src l.id 0x00 ∧ Reports f.2 t
        ∧ shown (lookupHeader l.id 0x00 f.1.more false recs.length f.1.falseHits 0 ++ recs.flatten) t
        ∧ recs.length ≤ f.1.hits.length ∧ ∀ b ∈ recs, b.length = 16)
    ∧ (∀ i k h p c st n slot, Admits s src opLookup l.id (hTenant l.conv) 2 l.comp l.epoch (some l.conv) true part → l.form = 1 →
      l.attach = true → s.attachPart src l part = true → l.sigmask % 2 ^ 56 = 2 ^ 56 - 1 → isCreate l.conv = false →
      s.heldConv l.conv = some c → c.readOnly = false → c.profile = l.profile → f.1.hits = [(i, k)] →
      f.2.pageBySerial part k.ptr = some (h, p) → f.2.stream? l.conv k.layer = some st →
      f.2.resident l.profile = some (n, slot) → astatOf p (Geo.ofImage slot.img) k.layer st = 0 →
      ∃ t st' p', exec (.lookupAttach src blk) s = .next t ∧ t.stream? l.conv k.layer = some st'
        ∧ Map.find? st'.entries (st.next / 256) = some h ∧ st'.next = (st.next / 256 + 1) * 256 ∧ st.next / 256 < 65536
        ∧ Map.find? t.pages h = some p' ∧ p'.shares = p.shares + 1 ∧ p'.state = p.state ∧ p'.rows = p.rows
        ∧ ((∀ kv ∈ f.2.streams, kv.1 / 256 = l.conv → kv.2.retained = false ∨ kv.2.mstate ≠ 2) → st.retained = false ∨ st.mstate ≠ 2 →
            Committed s t src l.id 0x00)
        ∧ (st.retained = true → st.mstate = 2 →
            ∃ r, Map.find? t.reqs s.nextReq = some r ∧ r.kind = .lookup ∧ r.id = l.id ∧ r.status = none ∧ r.waits ≠ []))
    ∧ ∀ slot gen, Admits s src opLookup l.id (hTenant l.conv) 2 l.comp l.epoch none (s.heldConv l.conv).isSome part → l.form = 1 →
      l.attach = true → s.attachPart src l part = true → l.sigmask % 2 ^ 56 = 2 ^ 56 - 1 → isCreate l.conv = true →
      (s.role = 0 ∨ s.role = 3) → (s.resident l.profile).isSome = true → s.prof.deleting.contains l.profile = false →
      s.freeSlot part = some (slot, gen) →
      let made := makeConv part slot gen l.profile (s.chargeSlot l.comp) s
      (search q made.2).1.hits = [] → (∀ kv ∈ (search q made.2).2.streams, kv.1 / 256 ≠ made.1) →
      ∃ t c, exec (.lookupAttach src blk) s = .next t ∧ Committed s t src l.id 0x00 ∧ Map.find? t.convs made.1 = some c
        ∧ c.profile = l.profile ∧ c.deleting = false
        ∧ shown (lookupHeader l.id 0x00 (search q made.2).1.more true 0 (search q made.2).1.falseHits made.1) t

/-- INSERT and DELETE of a tenant's objects (R41, R74, R168, R175, R176, R183): a sealed page enters the directory under its key in a free place of its
bank with one share more; CLASS is set; a deleted conversation or mask object can be reached no more, and a deleted entry is gone.
Where the spec leaves it to the model, its choices are those of log entries 110, 117, 134, 141 and 156. -/
def Obligations.ObjectsChange : Prop :=
  ∀ (s : State) (src : Src) (blk : Bytes) (part : Nat),
    let o := ObjBlk.ofBlock blk
    let admits (op : Nat) (object : Option Nat) (held : Bool) : Prop :=
      Admits s src op o.id (hTenant o.handle) 2 o.comp o.epoch object held part
    (∀ c, admits opInsert (some o.handle) true → objCheck true blk = true → s.heldConv o.handle = some c → c.readOnly = false →
      (∀ h p i, o.obj = 0 → s.outside c o.layer = false → s.pageAt o.handle o.layer o.pos = some (h, p) → Map.find? s.pages h = some p → p.state = .sealed →
        p.shares < 0xFFFFFF →
        let k := blockKey blk (hTenant o.handle) c.profile (h % 2 ^ 40)
        s.keyEntry part k = none → s.bankSlot (bankOf (chashOf k.tenant k.profile k.phash) k.tenant k.profile) = some i →
        ∃ t e, exec (.insertDirectoryEntry src blk) s = .next t ∧ Map.find? s.mex.dir i = none ∧ Map.find? t.mex.dir i = some e
          ∧ e.part = part ∧ e.ptr = h % 2 ^ 40 ∧ e.bad = false ∧ Map.find? t.mex.keys i = some k
          ∧ (∀ j, j ≠ i → Map.find? t.mex.dir j = Map.find? s.mex.dir j)
          ∧ Map.find? t.pages h = some { p with shares := p.shares + 1 } ∧ Committed s t src o.id 0x00
          ∧ Reports { s with mex := t.mex, pages := t.pages } t)
      ∧ (o.obj = 2 → ∃ t, exec (.insertClass src blk) s = .next t ∧ Map.find? t.convs o.handle = some { c with cls := byteAt blk 64 }
          ∧ (∀ h, h ≠ o.handle → Map.find? t.convs h = Map.find? s.convs h) ∧ Committed s t src o.id 0x00
          ∧ Reports { s with convs := t.convs, sec := (writeMeta c.part 1 o.handle s).sec } t))
    ∧ (objCheck false blk = true →
      (∀ c, o.obj = 1 → (∀ i k, src ≠ .own i k) → admits opDelete (some o.handle) true → s.heldConv o.handle = some c → c.readOnly = false →
        ∃ t, exec (.deleteConversation src blk) s = .next t ∧ t.heldConv o.handle = none ∧ (o.id, s.masterOf src, 0x00) ∈ t.done)
      ∧ (∀ m, o.obj = 2 → admits opDelete (some o.handle) true → Map.find? s.masks o.handle = some m → m.part = part → m.deleted = false →
        ∃ t, exec (.deleteMaskObject src blk) s = .next t ∧ t.maskHeld o.handle = false
          ∧ (∀ h, h ≠ o.handle → t.maskHeld h = s.maskHeld h) ∧ Committed s t src o.id 0x00
          ∧ Reports { s with masks := t.masks, sec := { s.sec with versions := t.sec.versions, roots := t.sec.roots } } t)
      ∧ ∀ i k, o.obj = 3 → admits opDelete none false → s.keyEntry part (blockKey blk (hTenant o.handle) (o.handle % 65536) 0) = some (i, k) →
        ∃ t, exec (.deleteDirectoryEntry src blk) s = .next t ∧ Map.find? t.mex.dir i = none ∧ (o.id, s.masterOf src, 0x00) ∈ t.done)

/-- Placement rules (R181, R182): with nothing pending an INSERT or a DELETE of a rule is pending until its shift is done, the table as it was till
then; a REPLACE takes effect at once; and the end of a shift makes the new table the table, with one record and the command's completion, and
MEX_SHIFT_POS shows the last position that the shift wrote (R184).
Where the spec leaves it to the model, its choices are those of log entries 34, 57 and 155. -/
def Obligations.RulesChange : Prop :=
  ∀ (s : State) (src : Src) (blk : Bytes),
    let o := ObjBlk.ofBlock blk
    (∀ op ∈ [opInsert, opDelete], AdmitsAdmin s src op pgMex o.id o.comp o.epoch → o.obj = 4 → s.mex.changes = [] →
      (op = opInsert → objCheck true blk = true → actionOk (ruleOf blk).action = true → (ruleOf blk).care < 2 ^ 53 →
        (o.replace = false → o.pos ≤ s.mex.rules.length → s.mex.rules.length < 16384 →
          ∃ t c, exec (.insertRule src blk) s = .next t ∧ t.mex.rules = s.mex.rules ∧ t.mex.changes = [c] ∧ c.op = 0 ∧ c.pos = o.pos
            ∧ c.rule = ruleOf blk ∧ (Map.find? t.reqs c.req).map (·.id) = some o.id
            ∧ Reports { s with mex := t.mex, reqs := t.reqs, nextReq := s.nextReq + 1 } t)
        ∧ (o.replace = true → o.pos < s.mex.rules.length →
          ∃ t, exec (.replaceRule src blk) s = .next t ∧ t.mex.rules = s.mex.rules.set o.pos (ruleOf blk) ∧ t.mex.changes = []
            ∧ Committed s t src o.id 0x00 ∧ t.log.seq = (s.log.seq + 1) % 2 ^ 64))
      ∧ (op = opDelete → objCheck false blk = true → o.pos < s.mex.rules.length →
        ∃ t c, exec (.deleteRule src blk) s = .next t ∧ t.mex.rules = s.mex.rules ∧ t.mex.changes = [c] ∧ c.op = 2 ∧ c.pos = o.pos
          ∧ Reports { s with mex := t.mex, reqs := t.reqs, nextReq := s.nextReq + 1 } t))
    ∧ ∀ c r, s.phase = .ready → s.mex.changes = [c] → Map.find? s.reqs c.req = some r → r.status = none →
      ∃ t, exec .ruleShiftDone s = .next t ∧ t.mex.changes = [] ∧ t.done.head? = some (r.id, r.master, 0x00)
        ∧ (c.op = 0 → t.mex.rules = s.mex.rules.take c.pos ++ c.rule :: s.mex.rules.drop c.pos)
        ∧ (c.op = 2 → t.mex.rules = s.mex.rules.eraseIdx c.pos)
        ∧ (c.op = 0 → t.shiftPosition = c.pos) ∧ (c.op = 2 → t.shiftPosition = s.mex.rules.length - 1)
        ∧ bitOf (t.reg pgMex 0x010) 0 = true ∧ t.log.seq = (s.log.seq + 1) % 2 ^ 64

/-- Profiles (R100, R109 to R114, Table 4-8): an image that passes checks 1 to 8 takes a slot as loading, and one that does not leaves the store as it
was and shows the failing check; a load that completes is the resident version, the one before it drains, and one that fails check 9 is gone; a
drained version's slot is free; and DELETE drains every version of the ID.
Where the spec leaves it to the model, its choices are those of log entries 109, 131 and 153. -/
def Obligations.ProfilesTurnOver : Prop :=
  ∀ s : State, s.phase = .ready →
    (∀ (src : Src) (img : Bytes),
      (∀ st n, s.loadCheck src img = some (st, n) → n ≠ 2 →
        ∃ t, exec (.profileLoad src img true) s = .next t ∧ t.prof = s.prof ∧ bitOf (t.reg pgProf 0x010) 1 = true
          ∧ t.field pgProf 0x054 0 8 = st.code ∧ t.field pgProf 0x054 8 8 = n
          ∧ Reports (s.setReg pgProf 0x054 (t.reg pgProf 0x054)) t)
      ∧ (s.loadCheck src img = none →
        ∃ t k x, exec (.profileLoad src img true) s = .next t ∧ Map.find? s.prof.slots k = none ∧ Map.find? t.prof.slots k = some x
          ∧ x.st = 1 ∧ x.id = leAt img 8 2 ∧ x.img = img ∧ t.prof.loading = some (s.nextReq, k)
          ∧ (∀ j, j ≠ k → Map.find? t.prof.slots j = Map.find? s.prof.slots j)
          ∧ Reports { s with prof := t.prof, reqs := t.reqs, nextReq := s.nextReq + 1 } t))
    ∧ (∀ i k r x, s.prof.loading = some (i, k) → Map.find? s.reqs i = some r → Map.find? s.prof.slots k = some x →
      ∃ t, exec .profileActivate s = .next t ∧ t.prof.loading = none
        ∧ (s.check9 x = false → Map.find? t.prof.slots k = none ∧ bitOf (t.reg pgProf 0x010) 1 = true
            ∧ ∀ j, j ≠ k → Map.find? t.prof.slots j = Map.find? s.prof.slots j)
        ∧ (s.check9 x = true → bitOf (t.reg pgProf 0x010) 0 = true ∧ t.log.seq = (s.log.seq + 1) % 2 ^ 64
            ∧ (∃ y, Map.find? t.prof.slots k = some y ∧ y.st = 2 ∧ y.id = x.id ∧ y.img = x.img
                ∧ y.ver = (match Map.find? s.prof.lastVer x.id with | some v => (v + 1) % 65536 | none => 1))
            ∧ ∀ j z, j ≠ k → Map.find? s.prof.slots j = some z → z.id = x.id → z.st = 2 →
                (Map.find? t.prof.slots j).map (·.st) = some 3))
    ∧ (∀ k x, Map.find? s.prof.slots k = some x → x.st = 3 → s.prof.deleting.contains x.id = true →
      (∀ kv ∈ s.profSlots x.id, s.boundTo kv.2.id kv.2.ver = 0) →
      ∃ t, exec (.versionDrained k) s = .next t ∧ t.prof.deleting.contains x.id = false
        ∧ (∀ kv ∈ s.profSlots x.id, Map.find? t.prof.slots kv.1 = none)
        ∧ (∀ j, (∀ kv ∈ s.profSlots x.id, kv.1 ≠ j) → Map.find? t.prof.slots j = Map.find? s.prof.slots j)
        ∧ Reports { s with prof := t.prof } t)
    ∧ (∀ k x, Map.find? s.prof.slots k = some x → x.st = 3 → s.prof.deleting.contains x.id = false → s.boundTo x.id x.ver = 0 →
      ∃ t, exec (.versionDrained k) s = .next t ∧ Map.find? t.prof.slots k = none ∧ bitOf (t.reg pgProf 0x010) 3 = true
        ∧ (∀ j, j ≠ k → Map.find? t.prof.slots j = Map.find? s.prof.slots j) ∧ Reports { s with prof := t.prof } t)
    ∧ ∀ (src : Src) (blk : Bytes),
      let o := ObjBlk.ofBlock blk
      AdmitsAdmin s src opDelete pgProf o.id o.comp o.epoch → o.obj = 5 → objCheck false blk = true → s.prof.loading = none →
      s.prof.deleting.contains o.handle = false → s.profSlots o.handle ≠ [] → (∀ kv ∈ s.convs, kv.2.profile ≠ o.handle) →
      ∃ t, exec (.deleteProfile src blk) s = .next t ∧ t.prof.deleting = s.prof.deleting ++ [o.handle]
        ∧ (∀ k z, Map.find? s.prof.slots k = some z →
            Map.find? t.prof.slots k = some (if z.id = o.handle then { z with st := 3 } else z))
        ∧ t.log.seq = (s.log.seq + 1) % 2 ^ 64 ∧ Committed s t src o.id 0x00 ∧ Reports { s with prof := t.prof } t
end

