-- ==== Sys2Proof/Laws/Maps.lean ====
section
/-! SUPPORT. Laws of the keyed collections: what a look-up finds after each operation, and that every operation keeps the
canonical form (strictly rising keys). -/
namespace Sys2Proof.Map
variable {α β : Type}

theorem above_find? {m : Map α} : ∀ {lo : Option Nat} {j : Nat}, lo = some j → above lo m = true → ∀ k, k ≤ j → find? m k = none := by
  induction m with
  | nil => intro _ _ _ _ _ _; rfl
  | cons kv m ih =>
    obtain ⟨i, v⟩ := kv
    intro lo j hlo h k hk
    subst hlo
    simp only [above, Bool.and_eq_true, decide_eq_true_eq] at h
    have : i ≠ k := by omega
    simp only [find?, this, if_false]
    exact ih rfl h.2 k (by omega)

theorem above_mono {m : Map α} {j k : Nat} (hk : k ≤ j) (h : above (some j) m = true) : above (some k) m = true := by
  cases m with
  | nil => rfl
  | cons kv m =>
    obtain ⟨i, v⟩ := kv
    simp only [above, Bool.and_eq_true, decide_eq_true_eq] at *
    exact ⟨by omega, h.2⟩

theorem above_wf {m : Map α} {lo : Option Nat} (h : above lo m = true) : m.wf = true := by
  cases m with
  | nil => rfl
  | cons kv m =>
    obtain ⟨i, v⟩ := kv
    cases lo with
    | none => exact h
    | some j =>
      simp only [above, Bool.and_eq_true] at h
      exact h.2

@[simp] theorem wf_nil : wf ([] : Map α) = true := rfl

@[simp] theorem find?_nil (k : Nat) : find? ([] : Map α) k = none := rfl

@[simp] theorem find?_insert_same (m : Map α) (k : Nat) (v : α) : find? (insert m k v) k = some v := by
  induction m with
  | nil => simp [insert, find?]
  | cons kv m ih =>
    obtain ⟨j, w⟩ := kv
    simp only [insert]
    split
    · simp [find?]
    · split
      · simp [find?]
      · have : j ≠ k := by omega
        simp [find?, this, ih]

theorem find?_insert_ne (m : Map α) {k k' : Nat} (v : α) (h : k' ≠ k) : find? (insert m k v) k' = find? m k' := by
  induction m with
  | nil => simp [insert, find?]; omega
  | cons kv m ih =>
    obtain ⟨j, w⟩ := kv
    simp only [insert]
    split
    · have : k ≠ k' := by omega
      simp [find?, this]
    · split
      · rename_i h2
        have : j ≠ k' := by omega
        have h3 : k ≠ k' := by omega
        simp [find?, this, h3]
      · simp only [find?]
        split
        · rfl
        · exact ih

theorem find?_erase_ne (m : Map α) {k k' : Nat} (h : k' ≠ k) : find? (erase m k) k' = find? m k' := by
  induction m with
  | nil => rfl
  | cons kv m ih =>
    obtain ⟨j, w⟩ := kv
    simp only [erase]
    split
    · have : j ≠ k' := by omega
      simp [find?, this, ih]
    · simp only [find?]
      split
      · rfl
      · exact ih

@[simp] theorem find?_erase_same (m : Map α) (k : Nat) : find? (erase m k) k = none := by
  induction m with
  | nil => rfl
  | cons kv m ih =>
    obtain ⟨j, w⟩ := kv
    simp only [erase]
    split
    · exact ih
    · rename_i h
      simp only [find?, h, if_false]
      exact ih

theorem find?_put_ne [DecidableEq α] (m : Map α) {k k' : Nat} (v d : α) (h : k' ≠ k) : find? (put m k v d) k' = find? m k' := by
  unfold put
  split
  · exact find?_erase_ne m h
  · exact find?_insert_ne m v h

@[simp] theorem getD_put_same [DecidableEq α] (m : Map α) (k : Nat) (v d : α) : getD (put m k v d) k d = v := by
  unfold put getD
  split
  · rename_i h; rw [find?_erase_same, h]; rfl
  · simp

theorem getD_put_ne [DecidableEq α] (m : Map α) {k k' : Nat} (v d e : α) (h : k' ≠ k) : getD (put m k v d) k' e = getD m k' e := by
  unfold getD
  rw [find?_put_ne m v d h]

@[simp] theorem getD_insert_same (m : Map α) (k : Nat) (v d : α) : getD (insert m k v) k d = v := by simp [getD]

theorem getD_insert_ne (m : Map α) {k k' : Nat} (v d : α) (h : k' ≠ k) : getD (insert m k v) k' d = getD m k' d := by
  simp [getD, find?_insert_ne m v h]

@[simp] theorem has_insert_same (m : Map α) (k : Nat) (v : α) : has (insert m k v) k = true := by simp [has]

theorem above_insert {m : Map α} : ∀ {lo : Option Nat} (k : Nat) (v : α), (∀ j, lo = some j → j < k) → above lo m = true →
    above lo (insert m k v) = true := by
  induction m with
  | nil =>
    intro lo k v hk _
    cases lo with
    | none => rfl
    | some j => simp [insert, above, hk j rfl]
  | cons kv m ih =>
    obtain ⟨j, w⟩ := kv
    intro lo k v hk h
    have hrest : above (some j) m = true := by
      cases lo with
      | none => exact h
      | some i => simp only [above, Bool.and_eq_true] at h; exact h.2
    simp only [insert]
    split
    · rename_i hlt
      have h1 : above (some k) ((j, w) :: m) = true := by simp [above, hlt, hrest]
      cases lo with
      | none => exact h1
      | some i => simp only [above, Bool.and_eq_true, decide_eq_true_eq]; exact ⟨hk i rfl, by simpa [above] using h1⟩
    · split
      · rename_i heq
        subst heq
        cases lo with
        | none => exact hrest
        | some i => simp only [above, Bool.and_eq_true, decide_eq_true_eq]; exact ⟨hk i rfl, hrest⟩
      · have h1 := ih (lo := some j) k v (by intro i hi; cases hi; omega) hrest
        cases lo with
        | none => exact h1
        | some i =>
          simp only [above, Bool.and_eq_true, decide_eq_true_eq] at h ⊢
          exact ⟨h.1, h1⟩

theorem wf_insert {m : Map α} (hm : m.wf = true) (k : Nat) (v : α) : (insert m k v).wf = true :=
  above_insert k v (by intro _ h; cases h) hm

theorem above_erase {m : Map α} : ∀ {lo : Option Nat} (k : Nat), above lo m = true → above lo (erase m k) = true := by
  induction m with
  | nil => intro lo k _; cases lo <;> rfl
  | cons kv m ih =>
    obtain ⟨j, w⟩ := kv
    intro lo k h
    have hrest : above (some j) m = true := by
      cases lo with
      | none => exact h
      | some i => simp only [above, Bool.and_eq_true] at h; exact h.2
    simp only [erase]
    split
    · cases lo with
      | none => exact above_wf (ih k hrest)
      | some i =>
        simp only [above, Bool.and_eq_true, decide_eq_true_eq] at h
        exact above_mono (by omega) (ih k hrest)
    · have h1 := ih (lo := some j) k hrest
      cases lo with
      | none => exact h1
      | some i =>
        simp only [above, Bool.and_eq_true, decide_eq_true_eq] at h ⊢
        exact ⟨h.1, h1⟩

theorem wf_erase {m : Map α} (hm : m.wf = true) (k : Nat) : (erase m k).wf = true := above_erase k hm

theorem wf_put [DecidableEq α] {m : Map α} (hm : m.wf = true) (k : Nat) (v d : α) : (put m k v d).wf = true := by
  unfold put
  split
  · exact wf_erase hm k
  · exact wf_insert hm k v

theorem wf_adjust {m : Map α} (hm : m.wf = true) (k : Nat) (f : α → α) : (adjust m k f).wf = true := by
  unfold adjust
  split
  · exact wf_insert hm k _
  · exact hm

theorem above_filterKV {m : Map α} (p : Nat → α → Bool) : ∀ {lo : Option Nat}, above lo m = true → above lo (filterKV m p) = true := by
  induction m with
  | nil => intro lo _; cases lo <;> rfl
  | cons kv m ih =>
    obtain ⟨j, w⟩ := kv
    intro lo h
    have hrest : above (some j) m = true := by
      cases lo with
      | none => exact h
      | some i => simp only [above, Bool.and_eq_true] at h; exact h.2
    have h1 := ih hrest
    by_cases hp : p j w = true
    · have hf : filterKV ((j, w) :: m) p = (j, w) :: filterKV m p := by simp [filterKV, hp]
      rw [hf]
      cases lo with
      | none => exact h1
      | some i =>
        simp only [above, Bool.and_eq_true, decide_eq_true_eq] at h ⊢
        exact ⟨h.1, h1⟩
    · have hf : filterKV ((j, w) :: m) p = filterKV m p := by simp [filterKV, hp]
      rw [hf]
      cases lo with
      | none => exact above_wf h1
      | some i =>
        simp only [above, Bool.and_eq_true, decide_eq_true_eq] at h
        exact above_mono (by omega) h1

theorem wf_filterKV {m : Map α} (hm : m.wf = true) (p : Nat → α → Bool) : (filterKV m p).wf = true := above_filterKV p hm

theorem above_mapVals {m : Map α} (f : Nat → α → β) : ∀ {lo : Option Nat}, above lo m = true → above lo (mapVals m f) = true := by
  induction m with
  | nil => intro lo _; cases lo <;> rfl
  | cons kv m ih =>
    obtain ⟨j, w⟩ := kv
    intro lo h
    cases lo with
    | none => exact ih (lo := some j) h
    | some i =>
      simp only [above, Bool.and_eq_true, decide_eq_true_eq] at h
      show (decide (i < j) && above (some j) (mapVals m f)) = true
      simp only [Bool.and_eq_true, decide_eq_true_eq]
      exact ⟨h.1, ih h.2⟩

theorem wf_mapVals {m : Map α} (hm : m.wf = true) (f : Nat → α → β) : (mapVals m f).wf = true := above_mapVals f hm

theorem mem_insert {m : Map α} {k : Nat} {v : α} {x : Nat × α} (h : x ∈ insert m k v) : x = (k, v) ∨ x ∈ m := by
  induction m with
  | nil => simp [insert] at h; exact .inl h
  | cons kv m ih =>
    obtain ⟨j, w⟩ := kv
    simp only [insert] at h
    split at h
    · simpa using h
    · split at h
      · simp only [List.mem_cons] at h ⊢
        rcases h with h | h
        · exact .inl h
        · exact .inr (.inr h)
      · simp only [List.mem_cons] at h ⊢
        rcases h with h | h
        · exact .inr (.inl h)
        · rcases ih h with h | h
          · exact .inl h
          · exact .inr (.inr h)

theorem mem_erase {m : Map α} {k : Nat} {x : Nat × α} (h : x ∈ erase m k) : x ∈ m := by
  induction m with
  | nil => simp [erase] at h
  | cons kv m ih =>
    obtain ⟨j, w⟩ := kv
    simp only [erase] at h
    split at h
    · exact List.mem_cons_of_mem _ (ih h)
    · simp only [List.mem_cons] at h ⊢
      rcases h with h | h
      · exact .inl h
      · exact .inr (ih h)

end Sys2Proof.Map
end

