-- ==== Sys2Proof/Laws/Frames.lean ====
section
/-! SUPPORT. What the shared reporting operations leave unchanged: each of them only reports (Safety.lean). -/
namespace Sys2Proof.Machine
open Sys2Proof

theorem Reports.refl (s : State) : Reports s s :=
  ⟨rfl, fun _ _ _ _ => rfl, fun _ _ _ _ => rfl, fun _ => rfl, fun _ => rfl, List.prefix_refl _⟩

theorem Reports.trans {s t u : State} (h : Reports s t) (g : Reports t u) : Reports s u :=
  ⟨g.still.trans h.still, fun p o w hk => (g.regs p o w hk).trans (h.regs p o w hk), fun p o w hk => (g.cnt p o w hk).trans (h.cnt p o w hk),
   fun i => (g.conns i).trans (h.conns i), fun r => (g.reqs r).trans (h.reqs r), h.out.trans g.out⟩

/-! Each field that reporting does not touch is the same. -/

theorem Reports.pending {s t : State} (h : Reports s t) : t.pending = s.pending := by
  simpa [State.still] using congrArg State.pending h.still
theorem Reports.time {s t : State} (h : Reports s t) : t.time = s.time := by
  simpa [State.still] using congrArg State.time h.still
theorem Reports.phase {s t : State} (h : Reports s t) : t.phase = s.phase := by
  simpa [State.still] using congrArg State.phase h.still
theorem Reports.fuses {s t : State} (h : Reports s t) : t.fuses = s.fuses := by
  simpa [State.still] using congrArg State.fuses h.still
theorem Reports.pins {s t : State} (h : Reports s t) : t.pins = s.pins := by
  simpa [State.still] using congrArg State.pins h.still
theorem Reports.sels {s t : State} (h : Reports s t) : t.sels = s.sels := by
  simpa [State.still] using congrArg State.sels h.still
theorem Reports.latch {s t : State} (h : Reports s t) : t.latch = s.latch := by
  simpa [State.still] using congrArg State.latch h.still
theorem Reports.rights {s t : State} (h : Reports s t) : t.rights = s.rights := by
  simpa [State.still] using congrArg State.rights h.still
theorem Reports.parts {s t : State} (h : Reports s t) : t.parts = s.parts := by
  simpa [State.still] using congrArg State.parts h.still
theorem Reports.convs {s t : State} (h : Reports s t) : t.convs = s.convs := by
  simpa [State.still] using congrArg State.convs h.still
theorem Reports.streams {s t : State} (h : Reports s t) : t.streams = s.streams := by
  simpa [State.still] using congrArg State.streams h.still
theorem Reports.pages {s t : State} (h : Reports s t) : t.pages = s.pages := by
  simpa [State.still] using congrArg State.pages h.still
theorem Reports.masks {s t : State} (h : Reports s t) : t.masks = s.masks := by
  simpa [State.still] using congrArg State.masks h.still
theorem Reports.nextReq {s t : State} (h : Reports s t) : t.nextReq = s.nextReq := by
  simpa [State.still] using congrArg State.nextReq h.still
theorem Reports.srqs {s t : State} (h : Reports s t) : t.srqs = s.srqs := by
  simpa [State.still] using congrArg State.srqs h.still
theorem Reports.primary {s t : State} (h : Reports s t) : t.primary = s.primary := by
  simpa [State.still] using congrArg State.primary h.still
theorem Reports.peerLost {s t : State} (h : Reports s t) : t.peerLost = s.peerLost := by
  simpa [State.still] using congrArg State.peerLost h.still
theorem Reports.ports {s t : State} (h : Reports s t) : t.ports = s.ports := by
  simpa [State.still] using congrArg State.ports h.still
theorem Reports.pods {s t : State} (h : Reports s t) : t.pods = s.pods := by
  simpa [State.still] using congrArg State.pods h.still
theorem Reports.regions {s t : State} (h : Reports s t) : t.regions = s.regions := by
  simpa [State.still] using congrArg State.regions h.still
theorem Reports.prof {s t : State} (h : Reports s t) : t.prof = s.prof := by
  simpa [State.still] using congrArg State.prof h.still
theorem Reports.mex {s t : State} (h : Reports s t) : t.mex = s.mex := by
  simpa [State.still] using congrArg State.mex h.still
theorem Reports.tier {s t : State} (h : Reports s t) : t.tier = s.tier := by
  simpa [State.still] using congrArg State.tier h.still
theorem Reports.flash {s t : State} (h : Reports s t) : t.flash = s.flash := by
  simpa [State.still] using congrArg State.flash h.still
theorem Reports.sec {s t : State} (h : Reports s t) : t.sec = s.sec := by
  simpa [State.still] using congrArg State.sec h.still
theorem Reports.res {s t : State} (h : Reports s t) : t.res = s.res := by
  simpa [State.still] using congrArg State.res h.still
theorem Reports.cmp {s t : State} (h : Reports s t) : t.cmp = s.cmp := by
  simpa [State.still] using congrArg State.cmp h.still
theorem Reports.pwr {s t : State} (h : Reports s t) : t.pwr = s.pwr := by
  simpa [State.still] using congrArg State.pwr h.still
theorem Reports.boot {s t : State} (h : Reports s t) : t.boot = s.boot := by
  simpa [State.still] using congrArg State.boot h.still
theorem Reports.pft_regions {s t : State} (h : Reports s t) : t.pft.regions = s.pft.regions := by
  simpa [State.still] using congrArg (fun u => u.pft.regions) h.still
theorem Reports.pft_finHold {s t : State} (h : Reports s t) : t.pft.finHold = s.pft.finHold := by
  simpa [State.still] using congrArg (fun u => u.pft.finHold) h.still
theorem Reports.pft_nextHop {s t : State} (h : Reports s t) : t.pft.nextHop = s.pft.nextHop := by
  simpa [State.still] using congrArg (fun u => u.pft.nextHop) h.still
theorem Reports.pft_portMode {s t : State} (h : Reports s t) : t.pft.portMode = s.pft.portMode := by
  simpa [State.still] using congrArg (fun u => u.pft.portMode) h.still
theorem Reports.pft_down {s t : State} (h : Reports s t) : t.pft.down = s.pft.down := by
  simpa [State.still] using congrArg (fun u => u.pft.down) h.still
theorem Reports.pft_degraded {s t : State} (h : Reports s t) : t.pft.degraded = s.pft.degraded := by
  simpa [State.still] using congrArg (fun u => u.pft.degraded) h.still
theorem Reports.tc_classBuckets {s t : State} (h : Reports s t) : t.tc.classBuckets = s.tc.classBuckets := by
  simpa [State.still] using congrArg (fun u => u.tc.classBuckets) h.still
theorem Reports.tc_entBuckets {s t : State} (h : Reports s t) : t.tc.entBuckets = s.tc.entBuckets := by
  simpa [State.still] using congrArg (fun u => u.tc.entBuckets) h.still
theorem Reports.tc_policers {s t : State} (h : Reports s t) : t.tc.policers = s.tc.policers := by
  simpa [State.still] using congrArg (fun u => u.tc.policers) h.still
theorem Reports.tc_deficits {s t : State} (h : Reports s t) : t.tc.deficits = s.tc.deficits := by
  simpa [State.still] using congrArg (fun u => u.tc.deficits) h.still
theorem Reports.tc_gates {s t : State} (h : Reports s t) : t.tc.gates = s.tc.gates := by
  simpa [State.still] using congrArg (fun u => u.tc.gates) h.still
theorem Reports.tc_turn {s t : State} (h : Reports s t) : t.tc.turn = s.tc.turn := by
  simpa [State.still] using congrArg (fun u => u.tc.turn) h.still

/-- Sending one more observation only reports. -/
theorem reports_send (s : State) (o : Output) : Reports s (s.send o) :=
  ⟨rfl, fun _ _ _ _ => rfl, fun _ _ _ _ => rfl, fun _ => rfl, fun _ => rfl, ⟨[o], rfl⟩⟩

/-- Setting a register that reporting may change only reports. -/
theorem reports_setReg (s : State) (page off v win : Nat) (hk : reportReg (regKey page off win) = true) :
    Reports s (s.setReg page off v win) := by
  refine ⟨rfl, fun p o w h => ?_, fun _ _ _ _ => rfl, fun _ => rfl, fun _ => rfl, List.prefix_refl _⟩
  have : regKey p o w ≠ regKey page off win := by intro e; rw [e, hk] at h; cases h
  unfold State.reg State.setReg
  rw [Map.find?_put_ne _ _ _ this]

/-- The offset of a register can be read from its key. -/
theorem regKey_off (page off win : Nat) (h : off < 0x1000) : regKey page off win % 0x1000 = off := by
  unfold regKey; omega

/-- PG_CAUSE of every page is a register that reporting changes. -/
theorem reportReg_cause (page win : Nat) : reportReg (regKey page 0x010 win) = true := by
  unfold reportReg
  rw [regKey_off _ _ _ (by decide)]
  simp

theorem reportReg_head (page off win : Nat) (h : off < 0x1000) (ho : off = 0x010 ∨ off = 0x00C ∨ off = 0x020 ∨ off = 0x024) :
    reportReg (regKey page off win) = true := by
  unfold reportReg
  rw [regKey_off _ _ _ h]
  rcases ho with rfl | rfl | rfl | rfl <;> simp

theorem reportReg_stat (page win : Nat) : reportReg (regKey page 0x00C win) = true := by
  unfold reportReg
  rw [regKey_off _ _ _ (by decide)]
  simp

theorem reports_evalInt (s : State) : Reports s (evalInt s) := by
  unfold evalInt
  simp only
  repeat' split
  all_goals first
    | exact Reports.refl _
    | (refine Reports.trans (t := sendMsix s.primary 0 (bitsOf (s.reg pgInt 0x040) 0 6) ((s.setField pgInt 0x044 0 1 0).bump pgInt 0x050)) ?_ ⟨rfl, fun _ _ _ _ => rfl, fun _ _ _ _ => rfl, fun _ => rfl, fun _ => rfl, List.prefix_refl _⟩
       exact ((reports_setReg s _ _ _ _ (by decide)).trans (reports_setReg _ _ _ _ _ (by decide))).trans (reports_send _ _))
    | exact ⟨rfl, fun _ _ _ _ => rfl, fun _ _ _ _ => rfl, fun _ => rfl, fun _ => rfl, List.prefix_refl _⟩

theorem reports_setCause (page bit : Nat) (s : State) : Reports s (setCause page bit s) :=
  (reports_setReg s page 0x010 _ 0 (reportReg_cause page 0)).trans (reports_evalInt _)

theorem reports_setEq (s : State) (port fn : Nat) (q : EventQueue) : Reports s (s.setEq port fn q) :=
  ⟨rfl, fun _ _ _ _ => rfl, fun _ _ _ _ => rfl, fun _ => rfl, fun _ => rfl, List.prefix_refl _⟩

theorem reports_postEvent (port fn : Nat) (rec : Bytes) (s : State) : Reports s (postEvent port fn rec s) := by
  unfold postEvent
  simp only
  split
  · split
    · exact ((reports_setEq s _ _ _).trans (reports_setReg _ _ _ _ _ (by decide))).trans (reports_setCause _ _ _)
    · exact (((reports_setEq s _ _ _).trans (reports_send _ _)).trans (reports_send _ _)).trans (reports_send _ _)
  · exact Reports.refl _

theorem reports_addCnt (s : State) (page off k win : Nat) (hk : reportCnt (regKey page off win) = true) :
    Reports s (s.addCnt page off k win) := by
  refine ⟨rfl, fun _ _ _ _ => rfl, fun p o w h => ?_, fun _ => rfl, fun _ => rfl, List.prefix_refl _⟩
  have : regKey p o w ≠ regKey page off win := by intro e; rw [e, hk] at h; cases h
  unfold State.cnt64 State.addCnt Map.getD
  rw [Map.find?_put_ne _ _ _ this]

theorem reports_queueFrame (port : Nat) (f : Frame) (s : State) : Reports s (queueFrame port f s) :=
  ⟨rfl, fun _ _ _ _ => rfl, fun _ _ _ _ => rfl, fun _ => rfl, fun _ => rfl, List.prefix_refl _⟩

theorem reports_sendPacket (dst : Bytes) (kind part path : Nat) (hdr payload : Bytes) (s : State) :
    Reports s (sendPacket dst kind part path hdr payload s) := by
  unfold sendPacket
  split
  · exact Reports.refl _
  · split
    · exact reports_queueFrame _ _ _
    · exact Reports.refl _

theorem reports_txPkt (part : Nat) (p : TxPkt) (s : State) : Reports s (txPkt part p s) :=
  ((reports_sendPacket _ _ _ _ _ _ s).trans (reports_addCnt _ _ _ _ _ (by decide))).trans (reports_addCnt _ _ _ _ _ (by decide))

/-- Replacing a connection by one that differs in its sending side alone only reports. -/
theorem reports_setConn (s : State) (i : Nat) (c c' : Conn) (hc : Map.find? s.pft.conns i = some c)
    (hq : c'.quiet = c.quiet) : Reports s (s.setConn i c') := by
  refine ⟨rfl, fun _ _ _ _ => rfl, fun _ _ _ _ => rfl, fun j => ?_, fun _ => rfl, List.prefix_refl _⟩
  by_cases h : j = i
  · subst h; simp [State.setConn, hc, hq]
  · simp [State.setConn, Map.find?_insert_ne _ _ h]

theorem reports_pump (fuel i : Nat) : ∀ s, Reports s (pump fuel i s) := by
  induction fuel with
  | zero => intro s; exact Reports.refl s
  | succ n ih =>
    intro s
    unfold pump
    split
    · exact Reports.refl s
    · rename_i c hc
      split
      · exact Reports.refl s
      · split
        · refine Reports.trans ?_ (ih _)
          refine Reports.trans (reports_setConn s i c _ hc ?_) (reports_txPkt _ _ _)
          unfold Conn.quiet State.startTimer
          split <;> rfl
        · exact Reports.refl s

theorem reports_placeMessage (i : Nat) (o : Outgoing) (s : State) : Reports s (placeMessage i o s) := by
  unfold placeMessage
  split
  · exact Reports.refl s
  · rename_i c hc
    split
    · exact Reports.trans (by exact reports_setConn s i c _ hc rfl) (reports_pump _ _ _)
    · exact Reports.refl s

theorem reports_sendEvent (rec : Bytes) (s : State) (node : Nat) : Reports s (sendEvent rec s node) := by
  unfold sendEvent
  split
  · exact reports_placeMessage _ _ _
  · exact Reports.refl s

/-- Folding an operation that only reports only reports. -/
theorem reports_foldl {α : Type} (f : State → α → State) (hf : ∀ s a, Reports s (f s a)) (l : List α) :
    ∀ s, Reports s (l.foldl f s) := by
  induction l with
  | nil => intro s; exact Reports.refl s
  | cons a l ih => intro s; exact (hf s a).trans (ih _)

theorem reports_deliverEvent (e : Event) (s : State) : Reports s (deliverEvent e s) := by
  have h1 : Reports s { s with pft := { s.pft with fogSeq := (s.pft.fogSeq + 1) % 2 ^ 32 } } :=
    ⟨rfl, fun _ _ _ _ => rfl, fun _ _ _ _ => rfl, fun _ => rfl, fun _ => rfl, List.prefix_refl _⟩
  unfold deliverEvent
  simp only
  split
  · exact h1.trans (reports_foldl _ (fun _ _ => reports_postEvent _ _ _ _) _ _)
  · exact ((h1.trans (reports_postEvent _ _ _ _)).trans (reports_postEvent _ _ _ _)).trans
      (reports_foldl _ (fun _ _ => reports_sendEvent _ _ _) _ _)

theorem reports_reportSat (s t : State) : Reports t (reportSat s t) := by
  unfold reportSat
  refine reports_foldl _ (fun u off => ?_) _ t
  split
  · exact (reports_setReg _ _ _ _ _ (by decide)).trans (reports_deliverEvent _ _)
  · exact Reports.refl u

theorem reports_raise (e : Event) (s : State) : Reports s (raise e s) :=
  (reports_deliverEvent e s).trans (reports_reportSat _ _)

theorem reports_sendMessage (i : Nat) (o : Outgoing) (s : State) : Reports s (sendMessage i o s) :=
  (reports_placeMessage i o s).trans (reports_reportSat _ _)

theorem reports_countUp (page off k : Nat) (s : State) (win : Nat) (hk : reportCnt (regKey page off win) = true) :
    Reports s (countUp page off k s win) := by
  unfold countUp
  simp only
  split
  · exact ((reports_addCnt s page off k win hk).trans (reports_setReg _ _ _ _ _ (reportReg_stat _ _))).trans (reports_raise _ _)
  · exact reports_addCnt s page off k win hk

theorem reports_deny (master target : Nat) (s : State) : Reports s (deny master target s) :=
  ((reports_setReg s _ _ _ _ (by decide)).trans (reports_setReg _ _ _ _ _ (by decide))).trans (reports_setCause _ _ _)

theorem reports_bumpMeas (s : State) : Reports s (bumpMeas s) :=
  (reports_setReg s _ _ _ _ (by decide)).trans (reports_setCause _ _ _)

theorem reports_appendRec (seq master kind target offset old new : Nat) (s : State) :
    Reports s (appendRec seq master kind target offset old new s) := by
  unfold appendRec
  simp only
  have h1 (l : Log) : Reports s { s with log := l } :=
    ⟨rfl, fun _ _ _ _ => rfl, fun _ _ _ _ => rfl, fun _ => rfl, fun _ => rfl, List.prefix_refl _⟩
  split
  · exact ((h1 _).trans (reports_bumpMeas _)).trans (reports_setCause _ _ _)
  · exact (h1 _).trans (reports_bumpMeas _)

theorem reports_logRec (master kind target offset old new : Nat) (s : State) :
    Reports s (logRec master kind target offset old new s) := reports_appendRec _ _ _ _ _ _ _ _

theorem reports_logCommand (master target offset old new : Nat) (s : State) :
    Reports s (logCommand master target offset old new s) := reports_appendRec _ _ _ _ _ _ _ _

theorem reports_setQueue (s : State) (port qp : Nat) (q : Queue) : Reports s (s.setQueue port qp q) :=
  ⟨rfl, fun _ _ _ _ => rfl, fun _ _ _ _ => rfl, fun _ => rfl, fun _ => rfl, List.prefix_refl _⟩

theorem reports_signal (port qp : Nat) (s : State) : Reports s (signal port qp s) := by
  unfold signal
  simp only
  repeat' split
  all_goals first
    | exact Reports.refl _
    | exact reports_setQueue _ _ _ _
    | exact (reports_setQueue _ _ _ _).trans (reports_send _ _)

theorem reports_writeCqe (port qp : Nat) (e : Cqe) (s : State) : Reports s (writeCqe port qp e s) :=
  ((reports_setQueue s _ _ _).trans (reports_send _ _)).trans (reports_signal _ _ _)

theorem reports_postCqe (port qp : Nat) (e : Cqe) (s : State) : Reports s (postCqe port qp e s) := by
  unfold postCqe
  simp only
  repeat' split
  all_goals first
    | exact Reports.refl _
    | exact reports_setQueue _ _ _ _
    | exact reports_writeCqe _ _ _ _

theorem reports_drainCq (port qp fuel : Nat) : ∀ s, Reports s (drainCq port qp fuel s) := by
  induction fuel with
  | zero => intro s; exact Reports.refl s
  | succ n ih =>
    intro s
    unfold drainCq
    split
    · exact Reports.refl s
    · split
      · exact Reports.refl s
      · exact ((reports_setQueue s _ _ _).trans (reports_writeCqe _ _ _ _)).trans (ih _)

/-- A queue pair's configuration is a register that reporting changes (its ENABLE, R282). -/
theorem reportReg_queue (port qp : Nat) (hp : port < 2) : reportReg (regKey (pgHq port 0) 0x074 qp) = true := by
  have h : ∀ page, 0x010 ≤ page → page < 0x020 → ∀ k, k = page * 0x1000 + 0x074 + 0x4000000 * qp → reportReg k = true := by
    intro page h1 h2 k hk
    have e1 : k % 0x1000 = 0x074 := by omega
    have e2 : k / 0x1000 % 0x4000 = page := by omega
    simp [reportReg, e1, e2, h1, h2]
  obtain rfl | rfl : port = 0 ∨ port = 1 := by omega
  · exact h 0x010 (by decide) (by decide) _ rfl
  · exact h 0x018 (by decide) (by decide) _ rfl

theorem reports_settleDisable (port qp : Nat) (s : State) (hp : port < 2) : Reports s (settleDisable port qp s) := by
  unfold settleDisable
  simp only
  split
  · refine (reports_setQueue s _ _ _).trans (reports_setReg _ _ _ _ _ ?_)
    exact reportReg_queue port qp hp
  · exact Reports.refl s

theorem reportCnt_meter (kind slot : Nat) (h : kind < 5) : reportCnt (regKey pgCmp (0x064 + 8 * kind) slot) = true := by
  have e1 : regKey pgCmp (0x064 + 8 * kind) slot % 0x1000 = 0x064 + 8 * kind := regKey_off _ _ _ (by omega)
  have e2 : regKey pgCmp (0x064 + 8 * kind) slot / 0x1000 % 0x4000 = 0x090 := by
    have : regKey pgCmp (0x064 + 8 * kind) slot = 0x090 * 0x1000 + (0x064 + 8 * kind) + 0x4000000 * slot := rfl
    omega
  unfold reportCnt
  simp only [e1, e2]
  simp
  omega

theorem reportReg_msat (slot : Nat) : reportReg (regKey pgCmp 0x060 slot) = true := by
  have e1 : regKey pgCmp 0x060 slot % 0x1000 = 0x060 := regKey_off _ _ _ (by omega)
  have e2 : regKey pgCmp 0x060 slot / 0x1000 % 0x4000 = 0x090 := by
    have : regKey pgCmp 0x060 slot = 0x090 * 0x1000 + 0x060 + 0x4000000 * slot := rfl
    omega
  simp [reportReg, e1, e2]

theorem reports_meter (slot kind k : Nat) (s : State) (h : kind < 5) : Reports s (meter slot kind k s) := by
  unfold meter
  simp only
  split
  · exact ((reports_countUp _ _ _ s slot (reportCnt_meter kind slot h)).trans
      (reports_setReg _ _ _ _ _ (reportReg_msat slot))).trans (reports_setCause _ _ _)
  · exact reports_countUp _ _ _ s slot (reportCnt_meter kind slot h)

theorem reports_returnBuffer (conn msg status : Nat) (s : State) : Reports s (returnBuffer conn msg status s) := by
  unfold returnBuffer
  have h1 (l : List PartialSend) : Reports s { s with pft := { s.pft with sends := l } } :=
    ⟨rfl, fun _ _ _ _ => rfl, fun _ _ _ _ => rfl, fun _ => rfl, fun _ => rfl, List.prefix_refl _⟩
  split
  · exact Reports.refl s
  · simp only
    split
    · exact h1 _
    · exact (h1 _).trans (reports_postCqe _ _ _ _)

theorem reports_deliver (src : Src) (kind tag status aux slot : Nat) (res : Bytes) (s : State) (h : Src.portOk src = true) :
    Reports s (deliver src kind tag status aux slot res s) := by
  unfold deliver
  split
  · simp only
    refine Reports.trans ?_ (reports_settleDisable _ _ _ (by simpa [Src.portOk] using h))
    refine Reports.trans (Reports.trans ?_ (reports_postCqe _ _ _ _)) (reports_setQueue _ _ _ _)
    split
    · exact Reports.refl s
    · exact reports_send _ _
  · exact ((reports_sendMessage _ _ s).trans (reports_returnBuffer _ _ _ _)).trans (reports_meter _ _ _ _ (by decide))
  · rename_i req idx
    refine ⟨rfl, fun _ _ _ _ => rfl, fun _ _ _ _ => rfl, fun _ => rfl, fun r => ?_, List.prefix_refl _⟩
    simp only [Map.adjust]
    split
    · rename_i v hv
      by_cases hr : r = req
      · subst hr; simp [hv, Req.quiet]
      · simp [Map.find?_insert_ne _ _ hr]
    · rfl
  · exact Reports.refl s

theorem reports_recordDone (reqId master status : Nat) (s : State) : Reports s (recordDone reqId master status s) :=
  ⟨rfl, fun _ _ _ _ => rfl, fun _ _ _ _ => rfl, fun _ => rfl, fun _ => rfl, List.prefix_refl _⟩

/-- Committing a command that took no request entry only reports. -/
theorem reports_finish (src : Src) (reqId : Nat) (st : Status) (s : State) (handle aux0 aux1 kind slot : Nat)
    (h : Src.portOk src = true) : Reports s (finish src reqId st s handle aux0 aux1 kind slot) :=
  (reports_recordDone _ _ _ s).trans (reports_deliver _ _ _ _ _ _ _ _ h)

theorem reports_finishDenied (src : Src) (reqId target : Nat) (s : State) (h : Src.portOk src = true) :
    Reports s (finishDenied src reqId target s) :=
  (reports_deny _ _ s).trans (reports_finish _ _ _ _ _ _ _ _ _ h)

/-- A REGISTER record only reports. -/
theorem reports_regRecord (master page off old new sel : Nat) (s : State) :
    Reports s (regRecord master page off old new sel s) :=
  ((reports_logRec _ _ _ _ _ _ s).trans (reports_setReg _ _ _ _ _ (reportReg_head page _ 0 (by decide) (by simp)))).trans
    (reports_setReg _ _ _ _ _ (reportReg_head page _ 0 (by decide) (by simp)))

theorem reports_owned (master page : Nat) (s : State) : Reports s (owned master page s) :=
  reports_setReg _ _ _ _ _ (reportReg_head page _ 0 (by decide) (by simp))

theorem reports_draw (s : State) : Reports s s.draw.2 :=
  ⟨rfl, fun _ _ _ _ => rfl, fun _ _ _ _ => rfl, fun _ => rfl, fun _ => rfl, List.prefix_refl _⟩

end Sys2Proof.Machine
end

