-- ==== Sys2Proof/Laws/Memory.lean ====
section
/-! SUPPORT. The laws of the serial memory: every operation on it keeps its canonical form, a byte that was put is read back,
and every other byte stays. -/
namespace Sys2Proof.Machine

theorem Memory.wf_iff (m : Map Byte) :
    Memory.wf m = true ↔ m.wf = true ∧ ∀ c ∈ m, c.1 < 0x4000000 ∧ c.2 ≠ smErased := by
  simp [Memory.wf]

/-- The memory at reset, with nothing listed, is in canonical form. -/
theorem Memory.wf_reset : Memory.wf State.reset.boot.smem = true := by decide

theorem smPut_wf {m : Map Byte} (hm : Memory.wf m = true) (a : Nat) (v : Byte) : Memory.wf (smPut m a v) = true := by
  rw [Memory.wf_iff] at hm ⊢
  unfold smPut
  split
  · rename_i ha
    refine ⟨Map.wf_put hm.1 a v _, fun c hc => ?_⟩
    unfold Map.put at hc
    split at hc
    · exact hm.2 c (Map.mem_erase hc)
    · rename_i hv
      rcases Map.mem_insert hc with h | h
      · subst h; exact ⟨ha, by simpa using hv⟩
      · exact hm.2 c h
  · exact hm

theorem smProgram_wf : ∀ (b : Bytes) {m : Map Byte} (a : Nat), Memory.wf m = true → Memory.wf (smProgram m a b) = true
  | [], _, _, hm => hm
  | _ :: r, _, a, hm => smProgram_wf r (a + 1) (smPut_wf hm a _)

theorem mem_filterKV {α : Type} {m : Map α} {p : Nat → α → Bool} {x : Nat × α} (h : x ∈ Map.filterKV m p) : x ∈ m :=
  (List.mem_filter.1 h).1

theorem smErase_wf {m : Map Byte} (hm : Memory.wf m = true) (a : Nat) : Memory.wf (smErase m a) = true := by
  rw [Memory.wf_iff] at hm ⊢
  exact ⟨Map.wf_filterKV hm.1 _, fun c hc => hm.2 c (mem_filterKV hc)⟩

theorem writeSlot_wf {m : Map Byte} (hm : Memory.wf m = true) (base size idx : Nat) (b : Bytes) :
    Memory.wf (writeSlot base size idx b m) = true := by
  unfold writeSlot
  exact smProgram_wf _ _ (by split <;> first | exact smErase_wf hm _ | exact hm)

/-- A byte elsewhere is not touched. -/
theorem smByte_smPut_ne (m : Map Byte) {a b : Nat} (v : Byte) (h : b ≠ a) : smByte (smPut m a v) b = smByte m b := by
  unfold smPut smByte
  split
  · exact Map.getD_put_ne m v _ _ h
  · rfl

/-- Programming touches only the bytes it covers. -/
theorem smByte_smProgram_out : ∀ (b : Bytes) (m : Map Byte) (a x : Nat), x < a ∨ a + b.length ≤ x →
    smByte (smProgram m a b) x = smByte m x
  | [], _, _, _, _ => rfl
  | c :: r, m, a, x, h => by
    simp only [List.length_cons] at h
    rw [smProgram, smByte_smProgram_out r _ (a + 1) x (by omega), smByte_smPut_ne m _ (by omega)]

end Sys2Proof.Machine
end

