-- ==== Sys2Proof/Laws/State.lean ====
section
/-! SUPPORT. One lemma per field of State and per update of it: what the update does to the field. -/
namespace Sys2Proof.Machine

/-! ## The plain updates -/

@[simp] theorem State.setReg_pending (s : State) (page off v win : Nat) : (s.setReg page off v win).pending = s.pending := rfl
@[simp] theorem State.setReg_out (s : State) (page off v win : Nat) : (s.setReg page off v win).out = s.out := rfl
@[simp] theorem State.setReg_fresh (s : State) (page off v win : Nat) : (s.setReg page off v win).fresh = s.fresh := rfl
@[simp] theorem State.setReg_time (s : State) (page off v win : Nat) : (s.setReg page off v win).time = s.time := rfl
@[simp] theorem State.setReg_phase (s : State) (page off v win : Nat) : (s.setReg page off v win).phase = s.phase := rfl
@[simp] theorem State.setReg_fuses (s : State) (page off v win : Nat) : (s.setReg page off v win).fuses = s.fuses := rfl
@[simp] theorem State.setReg_pins (s : State) (page off v win : Nat) : (s.setReg page off v win).pins = s.pins := rfl
@[simp] theorem State.setReg_sels (s : State) (page off v win : Nat) : (s.setReg page off v win).sels = s.sels := rfl
@[simp] theorem State.setReg_cnt (s : State) (page off v win : Nat) : (s.setReg page off v win).cnt = s.cnt := rfl
@[simp] theorem State.setReg_latch (s : State) (page off v win : Nat) : (s.setReg page off v win).latch = s.latch := rfl
@[simp] theorem State.setReg_rights (s : State) (page off v win : Nat) : (s.setReg page off v win).rights = s.rights := rfl
@[simp] theorem State.setReg_parts (s : State) (page off v win : Nat) : (s.setReg page off v win).parts = s.parts := rfl
@[simp] theorem State.setReg_convs (s : State) (page off v win : Nat) : (s.setReg page off v win).convs = s.convs := rfl
@[simp] theorem State.setReg_streams (s : State) (page off v win : Nat) : (s.setReg page off v win).streams = s.streams := rfl
@[simp] theorem State.setReg_pages (s : State) (page off v win : Nat) : (s.setReg page off v win).pages = s.pages := rfl
@[simp] theorem State.setReg_masks (s : State) (page off v win : Nat) : (s.setReg page off v win).masks = s.masks := rfl
@[simp] theorem State.setReg_reqs (s : State) (page off v win : Nat) : (s.setReg page off v win).reqs = s.reqs := rfl
@[simp] theorem State.setReg_nextReq (s : State) (page off v win : Nat) : (s.setReg page off v win).nextReq = s.nextReq := rfl
@[simp] theorem State.setReg_done (s : State) (page off v win : Nat) : (s.setReg page off v win).done = s.done := rfl
@[simp] theorem State.setReg_queues (s : State) (page off v win : Nat) : (s.setReg page off v win).queues = s.queues := rfl
@[simp] theorem State.setReg_eqs (s : State) (page off v win : Nat) : (s.setReg page off v win).eqs = s.eqs := rfl
@[simp] theorem State.setReg_srqs (s : State) (page off v win : Nat) : (s.setReg page off v win).srqs = s.srqs := rfl
@[simp] theorem State.setReg_primary (s : State) (page off v win : Nat) : (s.setReg page off v win).primary = s.primary := rfl
@[simp] theorem State.setReg_peerLost (s : State) (page off v win : Nat) : (s.setReg page off v win).peerLost = s.peerLost := rfl
@[simp] theorem State.setReg_ports (s : State) (page off v win : Nat) : (s.setReg page off v win).ports = s.ports := rfl
@[simp] theorem State.setReg_pods (s : State) (page off v win : Nat) : (s.setReg page off v win).pods = s.pods := rfl
@[simp] theorem State.setReg_regions (s : State) (page off v win : Nat) : (s.setReg page off v win).regions = s.regions := rfl
@[simp] theorem State.setReg_links (s : State) (page off v win : Nat) : (s.setReg page off v win).links = s.links := rfl
@[simp] theorem State.setReg_prof (s : State) (page off v win : Nat) : (s.setReg page off v win).prof = s.prof := rfl
@[simp] theorem State.setReg_mex (s : State) (page off v win : Nat) : (s.setReg page off v win).mex = s.mex := rfl
@[simp] theorem State.setReg_tier (s : State) (page off v win : Nat) : (s.setReg page off v win).tier = s.tier := rfl
@[simp] theorem State.setReg_flash (s : State) (page off v win : Nat) : (s.setReg page off v win).flash = s.flash := rfl
@[simp] theorem State.setReg_pft (s : State) (page off v win : Nat) : (s.setReg page off v win).pft = s.pft := rfl
@[simp] theorem State.setReg_tc (s : State) (page off v win : Nat) : (s.setReg page off v win).tc = s.tc := rfl
@[simp] theorem State.setReg_sec (s : State) (page off v win : Nat) : (s.setReg page off v win).sec = s.sec := rfl
@[simp] theorem State.setReg_log (s : State) (page off v win : Nat) : (s.setReg page off v win).log = s.log := rfl
@[simp] theorem State.setReg_res (s : State) (page off v win : Nat) : (s.setReg page off v win).res = s.res := rfl
@[simp] theorem State.setReg_cmp (s : State) (page off v win : Nat) : (s.setReg page off v win).cmp = s.cmp := rfl
@[simp] theorem State.setReg_pwr (s : State) (page off v win : Nat) : (s.setReg page off v win).pwr = s.pwr := rfl
@[simp] theorem State.setReg_boot (s : State) (page off v win : Nat) : (s.setReg page off v win).boot = s.boot := rfl
@[simp] theorem State.setReg_lastMsg (s : State) (page off v win : Nat) : (s.setReg page off v win).lastMsg = s.lastMsg := rfl
@[simp] theorem State.setReg_msgPending (s : State) (page off v win : Nat) : (s.setReg page off v win).msgPending = s.msgPending := rfl

@[simp] theorem State.setField_pending (s : State) (page off lo w x win : Nat) : (s.setField page off lo w x win).pending = s.pending := rfl
@[simp] theorem State.setField_out (s : State) (page off lo w x win : Nat) : (s.setField page off lo w x win).out = s.out := rfl
@[simp] theorem State.setField_fresh (s : State) (page off lo w x win : Nat) : (s.setField page off lo w x win).fresh = s.fresh := rfl
@[simp] theorem State.setField_time (s : State) (page off lo w x win : Nat) : (s.setField page off lo w x win).time = s.time := rfl
@[simp] theorem State.setField_phase (s : State) (page off lo w x win : Nat) : (s.setField page off lo w x win).phase = s.phase := rfl
@[simp] theorem State.setField_fuses (s : State) (page off lo w x win : Nat) : (s.setField page off lo w x win).fuses = s.fuses := rfl
@[simp] theorem State.setField_pins (s : State) (page off lo w x win : Nat) : (s.setField page off lo w x win).pins = s.pins := rfl
@[simp] theorem State.setField_sels (s : State) (page off lo w x win : Nat) : (s.setField page off lo w x win).sels = s.sels := rfl
@[simp] theorem State.setField_cnt (s : State) (page off lo w x win : Nat) : (s.setField page off lo w x win).cnt = s.cnt := rfl
@[simp] theorem State.setField_latch (s : State) (page off lo w x win : Nat) : (s.setField page off lo w x win).latch = s.latch := rfl
@[simp] theorem State.setField_rights (s : State) (page off lo w x win : Nat) : (s.setField page off lo w x win).rights = s.rights := rfl
@[simp] theorem State.setField_parts (s : State) (page off lo w x win : Nat) : (s.setField page off lo w x win).parts = s.parts := rfl
@[simp] theorem State.setField_convs (s : State) (page off lo w x win : Nat) : (s.setField page off lo w x win).convs = s.convs := rfl
@[simp] theorem State.setField_streams (s : State) (page off lo w x win : Nat) : (s.setField page off lo w x win).streams = s.streams := rfl
@[simp] theorem State.setField_pages (s : State) (page off lo w x win : Nat) : (s.setField page off lo w x win).pages = s.pages := rfl
@[simp] theorem State.setField_masks (s : State) (page off lo w x win : Nat) : (s.setField page off lo w x win).masks = s.masks := rfl
@[simp] theorem State.setField_reqs (s : State) (page off lo w x win : Nat) : (s.setField page off lo w x win).reqs = s.reqs := rfl
@[simp] theorem State.setField_nextReq (s : State) (page off lo w x win : Nat) : (s.setField page off lo w x win).nextReq = s.nextReq := rfl
@[simp] theorem State.setField_done (s : State) (page off lo w x win : Nat) : (s.setField page off lo w x win).done = s.done := rfl
@[simp] theorem State.setField_queues (s : State) (page off lo w x win : Nat) : (s.setField page off lo w x win).queues = s.queues := rfl
@[simp] theorem State.setField_eqs (s : State) (page off lo w x win : Nat) : (s.setField page off lo w x win).eqs = s.eqs := rfl
@[simp] theorem State.setField_srqs (s : State) (page off lo w x win : Nat) : (s.setField page off lo w x win).srqs = s.srqs := rfl
@[simp] theorem State.setField_primary (s : State) (page off lo w x win : Nat) : (s.setField page off lo w x win).primary = s.primary := rfl
@[simp] theorem State.setField_peerLost (s : State) (page off lo w x win : Nat) : (s.setField page off lo w x win).peerLost = s.peerLost := rfl
@[simp] theorem State.setField_ports (s : State) (page off lo w x win : Nat) : (s.setField page off lo w x win).ports = s.ports := rfl
@[simp] theorem State.setField_pods (s : State) (page off lo w x win : Nat) : (s.setField page off lo w x win).pods = s.pods := rfl
@[simp] theorem State.setField_regions (s : State) (page off lo w x win : Nat) : (s.setField page off lo w x win).regions = s.regions := rfl
@[simp] theorem State.setField_links (s : State) (page off lo w x win : Nat) : (s.setField page off lo w x win).links = s.links := rfl
@[simp] theorem State.setField_prof (s : State) (page off lo w x win : Nat) : (s.setField page off lo w x win).prof = s.prof := rfl
@[simp] theorem State.setField_mex (s : State) (page off lo w x win : Nat) : (s.setField page off lo w x win).mex = s.mex := rfl
@[simp] theorem State.setField_tier (s : State) (page off lo w x win : Nat) : (s.setField page off lo w x win).tier = s.tier := rfl
@[simp] theorem State.setField_flash (s : State) (page off lo w x win : Nat) : (s.setField page off lo w x win).flash = s.flash := rfl
@[simp] theorem State.setField_pft (s : State) (page off lo w x win : Nat) : (s.setField page off lo w x win).pft = s.pft := rfl
@[simp] theorem State.setField_tc (s : State) (page off lo w x win : Nat) : (s.setField page off lo w x win).tc = s.tc := rfl
@[simp] theorem State.setField_sec (s : State) (page off lo w x win : Nat) : (s.setField page off lo w x win).sec = s.sec := rfl
@[simp] theorem State.setField_log (s : State) (page off lo w x win : Nat) : (s.setField page off lo w x win).log = s.log := rfl
@[simp] theorem State.setField_res (s : State) (page off lo w x win : Nat) : (s.setField page off lo w x win).res = s.res := rfl
@[simp] theorem State.setField_cmp (s : State) (page off lo w x win : Nat) : (s.setField page off lo w x win).cmp = s.cmp := rfl
@[simp] theorem State.setField_pwr (s : State) (page off lo w x win : Nat) : (s.setField page off lo w x win).pwr = s.pwr := rfl
@[simp] theorem State.setField_boot (s : State) (page off lo w x win : Nat) : (s.setField page off lo w x win).boot = s.boot := rfl
@[simp] theorem State.setField_lastMsg (s : State) (page off lo w x win : Nat) : (s.setField page off lo w x win).lastMsg = s.lastMsg := rfl
@[simp] theorem State.setField_msgPending (s : State) (page off lo w x win : Nat) : (s.setField page off lo w x win).msgPending = s.msgPending := rfl

@[simp] theorem State.bump_pending (s : State) (page off k win : Nat) : (s.bump page off k win).pending = s.pending := rfl
@[simp] theorem State.bump_out (s : State) (page off k win : Nat) : (s.bump page off k win).out = s.out := rfl
@[simp] theorem State.bump_fresh (s : State) (page off k win : Nat) : (s.bump page off k win).fresh = s.fresh := rfl
@[simp] theorem State.bump_time (s : State) (page off k win : Nat) : (s.bump page off k win).time = s.time := rfl
@[simp] theorem State.bump_phase (s : State) (page off k win : Nat) : (s.bump page off k win).phase = s.phase := rfl
@[simp] theorem State.bump_fuses (s : State) (page off k win : Nat) : (s.bump page off k win).fuses = s.fuses := rfl
@[simp] theorem State.bump_pins (s : State) (page off k win : Nat) : (s.bump page off k win).pins = s.pins := rfl
@[simp] theorem State.bump_sels (s : State) (page off k win : Nat) : (s.bump page off k win).sels = s.sels := rfl
@[simp] theorem State.bump_cnt (s : State) (page off k win : Nat) : (s.bump page off k win).cnt = s.cnt := rfl
@[simp] theorem State.bump_latch (s : State) (page off k win : Nat) : (s.bump page off k win).latch = s.latch := rfl
@[simp] theorem State.bump_rights (s : State) (page off k win : Nat) : (s.bump page off k win).rights = s.rights := rfl
@[simp] theorem State.bump_parts (s : State) (page off k win : Nat) : (s.bump page off k win).parts = s.parts := rfl
@[simp] theorem State.bump_convs (s : State) (page off k win : Nat) : (s.bump page off k win).convs = s.convs := rfl
@[simp] theorem State.bump_streams (s : State) (page off k win : Nat) : (s.bump page off k win).streams = s.streams := rfl
@[simp] theorem State.bump_pages (s : State) (page off k win : Nat) : (s.bump page off k win).pages = s.pages := rfl
@[simp] theorem State.bump_masks (s : State) (page off k win : Nat) : (s.bump page off k win).masks = s.masks := rfl
@[simp] theorem State.bump_reqs (s : State) (page off k win : Nat) : (s.bump page off k win).reqs = s.reqs := rfl
@[simp] theorem State.bump_nextReq (s : State) (page off k win : Nat) : (s.bump page off k win).nextReq = s.nextReq := rfl
@[simp] theorem State.bump_done (s : State) (page off k win : Nat) : (s.bump page off k win).done = s.done := rfl
@[simp] theorem State.bump_queues (s : State) (page off k win : Nat) : (s.bump page off k win).queues = s.queues := rfl
@[simp] theorem State.bump_eqs (s : State) (page off k win : Nat) : (s.bump page off k win).eqs = s.eqs := rfl
@[simp] theorem State.bump_srqs (s : State) (page off k win : Nat) : (s.bump page off k win).srqs = s.srqs := rfl
@[simp] theorem State.bump_primary (s : State) (page off k win : Nat) : (s.bump page off k win).primary = s.primary := rfl
@[simp] theorem State.bump_peerLost (s : State) (page off k win : Nat) : (s.bump page off k win).peerLost = s.peerLost := rfl
@[simp] theorem State.bump_ports (s : State) (page off k win : Nat) : (s.bump page off k win).ports = s.ports := rfl
@[simp] theorem State.bump_pods (s : State) (page off k win : Nat) : (s.bump page off k win).pods = s.pods := rfl
@[simp] theorem State.bump_regions (s : State) (page off k win : Nat) : (s.bump page off k win).regions = s.regions := rfl
@[simp] theorem State.bump_links (s : State) (page off k win : Nat) : (s.bump page off k win).links = s.links := rfl
@[simp] theorem State.bump_prof (s : State) (page off k win : Nat) : (s.bump page off k win).prof = s.prof := rfl
@[simp] theorem State.bump_mex (s : State) (page off k win : Nat) : (s.bump page off k win).mex = s.mex := rfl
@[simp] theorem State.bump_tier (s : State) (page off k win : Nat) : (s.bump page off k win).tier = s.tier := rfl
@[simp] theorem State.bump_flash (s : State) (page off k win : Nat) : (s.bump page off k win).flash = s.flash := rfl
@[simp] theorem State.bump_pft (s : State) (page off k win : Nat) : (s.bump page off k win).pft = s.pft := rfl
@[simp] theorem State.bump_tc (s : State) (page off k win : Nat) : (s.bump page off k win).tc = s.tc := rfl
@[simp] theorem State.bump_sec (s : State) (page off k win : Nat) : (s.bump page off k win).sec = s.sec := rfl
@[simp] theorem State.bump_log (s : State) (page off k win : Nat) : (s.bump page off k win).log = s.log := rfl
@[simp] theorem State.bump_res (s : State) (page off k win : Nat) : (s.bump page off k win).res = s.res := rfl
@[simp] theorem State.bump_cmp (s : State) (page off k win : Nat) : (s.bump page off k win).cmp = s.cmp := rfl
@[simp] theorem State.bump_pwr (s : State) (page off k win : Nat) : (s.bump page off k win).pwr = s.pwr := rfl
@[simp] theorem State.bump_boot (s : State) (page off k win : Nat) : (s.bump page off k win).boot = s.boot := rfl
@[simp] theorem State.bump_lastMsg (s : State) (page off k win : Nat) : (s.bump page off k win).lastMsg = s.lastMsg := rfl
@[simp] theorem State.bump_msgPending (s : State) (page off k win : Nat) : (s.bump page off k win).msgPending = s.msgPending := rfl

@[simp] theorem State.setSel_pending (s : State) (master page off v : Nat) : (s.setSel master page off v).pending = s.pending := rfl
@[simp] theorem State.setSel_out (s : State) (master page off v : Nat) : (s.setSel master page off v).out = s.out := rfl
@[simp] theorem State.setSel_fresh (s : State) (master page off v : Nat) : (s.setSel master page off v).fresh = s.fresh := rfl
@[simp] theorem State.setSel_time (s : State) (master page off v : Nat) : (s.setSel master page off v).time = s.time := rfl
@[simp] theorem State.setSel_phase (s : State) (master page off v : Nat) : (s.setSel master page off v).phase = s.phase := rfl
@[simp] theorem State.setSel_fuses (s : State) (master page off v : Nat) : (s.setSel master page off v).fuses = s.fuses := rfl
@[simp] theorem State.setSel_pins (s : State) (master page off v : Nat) : (s.setSel master page off v).pins = s.pins := rfl
@[simp] theorem State.setSel_regs (s : State) (master page off v : Nat) : (s.setSel master page off v).regs = s.regs := rfl
@[simp] theorem State.setSel_cnt (s : State) (master page off v : Nat) : (s.setSel master page off v).cnt = s.cnt := rfl
@[simp] theorem State.setSel_latch (s : State) (master page off v : Nat) : (s.setSel master page off v).latch = s.latch := rfl
@[simp] theorem State.setSel_rights (s : State) (master page off v : Nat) : (s.setSel master page off v).rights = s.rights := rfl
@[simp] theorem State.setSel_parts (s : State) (master page off v : Nat) : (s.setSel master page off v).parts = s.parts := rfl
@[simp] theorem State.setSel_convs (s : State) (master page off v : Nat) : (s.setSel master page off v).convs = s.convs := rfl
@[simp] theorem State.setSel_streams (s : State) (master page off v : Nat) : (s.setSel master page off v).streams = s.streams := rfl
@[simp] theorem State.setSel_pages (s : State) (master page off v : Nat) : (s.setSel master page off v).pages = s.pages := rfl
@[simp] theorem State.setSel_masks (s : State) (master page off v : Nat) : (s.setSel master page off v).masks = s.masks := rfl
@[simp] theorem State.setSel_reqs (s : State) (master page off v : Nat) : (s.setSel master page off v).reqs = s.reqs := rfl
@[simp] theorem State.setSel_nextReq (s : State) (master page off v : Nat) : (s.setSel master page off v).nextReq = s.nextReq := rfl
@[simp] theorem State.setSel_done (s : State) (master page off v : Nat) : (s.setSel master page off v).done = s.done := rfl
@[simp] theorem State.setSel_queues (s : State) (master page off v : Nat) : (s.setSel master page off v).queues = s.queues := rfl
@[simp] theorem State.setSel_eqs (s : State) (master page off v : Nat) : (s.setSel master page off v).eqs = s.eqs := rfl
@[simp] theorem State.setSel_srqs (s : State) (master page off v : Nat) : (s.setSel master page off v).srqs = s.srqs := rfl
@[simp] theorem State.setSel_primary (s : State) (master page off v : Nat) : (s.setSel master page off v).primary = s.primary := rfl
@[simp] theorem State.setSel_peerLost (s : State) (master page off v : Nat) : (s.setSel master page off v).peerLost = s.peerLost := rfl
@[simp] theorem State.setSel_ports (s : State) (master page off v : Nat) : (s.setSel master page off v).ports = s.ports := rfl
@[simp] theorem State.setSel_pods (s : State) (master page off v : Nat) : (s.setSel master page off v).pods = s.pods := rfl
@[simp] theorem State.setSel_regions (s : State) (master page off v : Nat) : (s.setSel master page off v).regions = s.regions := rfl
@[simp] theorem State.setSel_links (s : State) (master page off v : Nat) : (s.setSel master page off v).links = s.links := rfl
@[simp] theorem State.setSel_prof (s : State) (master page off v : Nat) : (s.setSel master page off v).prof = s.prof := rfl
@[simp] theorem State.setSel_mex (s : State) (master page off v : Nat) : (s.setSel master page off v).mex = s.mex := rfl
@[simp] theorem State.setSel_tier (s : State) (master page off v : Nat) : (s.setSel master page off v).tier = s.tier := rfl
@[simp] theorem State.setSel_flash (s : State) (master page off v : Nat) : (s.setSel master page off v).flash = s.flash := rfl
@[simp] theorem State.setSel_pft (s : State) (master page off v : Nat) : (s.setSel master page off v).pft = s.pft := rfl
@[simp] theorem State.setSel_tc (s : State) (master page off v : Nat) : (s.setSel master page off v).tc = s.tc := rfl
@[simp] theorem State.setSel_sec (s : State) (master page off v : Nat) : (s.setSel master page off v).sec = s.sec := rfl
@[simp] theorem State.setSel_log (s : State) (master page off v : Nat) : (s.setSel master page off v).log = s.log := rfl
@[simp] theorem State.setSel_res (s : State) (master page off v : Nat) : (s.setSel master page off v).res = s.res := rfl
@[simp] theorem State.setSel_cmp (s : State) (master page off v : Nat) : (s.setSel master page off v).cmp = s.cmp := rfl
@[simp] theorem State.setSel_pwr (s : State) (master page off v : Nat) : (s.setSel master page off v).pwr = s.pwr := rfl
@[simp] theorem State.setSel_boot (s : State) (master page off v : Nat) : (s.setSel master page off v).boot = s.boot := rfl
@[simp] theorem State.setSel_lastMsg (s : State) (master page off v : Nat) : (s.setSel master page off v).lastMsg = s.lastMsg := rfl
@[simp] theorem State.setSel_msgPending (s : State) (master page off v : Nat) : (s.setSel master page off v).msgPending = s.msgPending := rfl

@[simp] theorem State.addCnt_pending (s : State) (page off k win : Nat) : (s.addCnt page off k win).pending = s.pending := rfl
@[simp] theorem State.addCnt_out (s : State) (page off k win : Nat) : (s.addCnt page off k win).out = s.out := rfl
@[simp] theorem State.addCnt_fresh (s : State) (page off k win : Nat) : (s.addCnt page off k win).fresh = s.fresh := rfl
@[simp] theorem State.addCnt_time (s : State) (page off k win : Nat) : (s.addCnt page off k win).time = s.time := rfl
@[simp] theorem State.addCnt_phase (s : State) (page off k win : Nat) : (s.addCnt page off k win).phase = s.phase := rfl
@[simp] theorem State.addCnt_fuses (s : State) (page off k win : Nat) : (s.addCnt page off k win).fuses = s.fuses := rfl
@[simp] theorem State.addCnt_pins (s : State) (page off k win : Nat) : (s.addCnt page off k win).pins = s.pins := rfl
@[simp] theorem State.addCnt_regs (s : State) (page off k win : Nat) : (s.addCnt page off k win).regs = s.regs := rfl
@[simp] theorem State.addCnt_sels (s : State) (page off k win : Nat) : (s.addCnt page off k win).sels = s.sels := rfl
@[simp] theorem State.addCnt_latch (s : State) (page off k win : Nat) : (s.addCnt page off k win).latch = s.latch := rfl
@[simp] theorem State.addCnt_rights (s : State) (page off k win : Nat) : (s.addCnt page off k win).rights = s.rights := rfl
@[simp] theorem State.addCnt_parts (s : State) (page off k win : Nat) : (s.addCnt page off k win).parts = s.parts := rfl
@[simp] theorem State.addCnt_convs (s : State) (page off k win : Nat) : (s.addCnt page off k win).convs = s.convs := rfl
@[simp] theorem State.addCnt_streams (s : State) (page off k win : Nat) : (s.addCnt page off k win).streams = s.streams := rfl
@[simp] theorem State.addCnt_pages (s : State) (page off k win : Nat) : (s.addCnt page off k win).pages = s.pages := rfl
@[simp] theorem State.addCnt_masks (s : State) (page off k win : Nat) : (s.addCnt page off k win).masks = s.masks := rfl
@[simp] theorem State.addCnt_reqs (s : State) (page off k win : Nat) : (s.addCnt page off k win).reqs = s.reqs := rfl
@[simp] theorem State.addCnt_nextReq (s : State) (page off k win : Nat) : (s.addCnt page off k win).nextReq = s.nextReq := rfl
@[simp] theorem State.addCnt_done (s : State) (page off k win : Nat) : (s.addCnt page off k win).done = s.done := rfl
@[simp] theorem State.addCnt_queues (s : State) (page off k win : Nat) : (s.addCnt page off k win).queues = s.queues := rfl
@[simp] theorem State.addCnt_eqs (s : State) (page off k win : Nat) : (s.addCnt page off k win).eqs = s.eqs := rfl
@[simp] theorem State.addCnt_srqs (s : State) (page off k win : Nat) : (s.addCnt page off k win).srqs = s.srqs := rfl
@[simp] theorem State.addCnt_primary (s : State) (page off k win : Nat) : (s.addCnt page off k win).primary = s.primary := rfl
@[simp] theorem State.addCnt_peerLost (s : State) (page off k win : Nat) : (s.addCnt page off k win).peerLost = s.peerLost := rfl
@[simp] theorem State.addCnt_ports (s : State) (page off k win : Nat) : (s.addCnt page off k win).ports = s.ports := rfl
@[simp] theorem State.addCnt_pods (s : State) (page off k win : Nat) : (s.addCnt page off k win).pods = s.pods := rfl
@[simp] theorem State.addCnt_regions (s : State) (page off k win : Nat) : (s.addCnt page off k win).regions = s.regions := rfl
@[simp] theorem State.addCnt_links (s : State) (page off k win : Nat) : (s.addCnt page off k win).links = s.links := rfl
@[simp] theorem State.addCnt_prof (s : State) (page off k win : Nat) : (s.addCnt page off k win).prof = s.prof := rfl
@[simp] theorem State.addCnt_mex (s : State) (page off k win : Nat) : (s.addCnt page off k win).mex = s.mex := rfl
@[simp] theorem State.addCnt_tier (s : State) (page off k win : Nat) : (s.addCnt page off k win).tier = s.tier := rfl
@[simp] theorem State.addCnt_flash (s : State) (page off k win : Nat) : (s.addCnt page off k win).flash = s.flash := rfl
@[simp] theorem State.addCnt_pft (s : State) (page off k win : Nat) : (s.addCnt page off k win).pft = s.pft := rfl
@[simp] theorem State.addCnt_tc (s : State) (page off k win : Nat) : (s.addCnt page off k win).tc = s.tc := rfl
@[simp] theorem State.addCnt_sec (s : State) (page off k win : Nat) : (s.addCnt page off k win).sec = s.sec := rfl
@[simp] theorem State.addCnt_log (s : State) (page off k win : Nat) : (s.addCnt page off k win).log = s.log := rfl
@[simp] theorem State.addCnt_res (s : State) (page off k win : Nat) : (s.addCnt page off k win).res = s.res := rfl
@[simp] theorem State.addCnt_cmp (s : State) (page off k win : Nat) : (s.addCnt page off k win).cmp = s.cmp := rfl
@[simp] theorem State.addCnt_pwr (s : State) (page off k win : Nat) : (s.addCnt page off k win).pwr = s.pwr := rfl
@[simp] theorem State.addCnt_boot (s : State) (page off k win : Nat) : (s.addCnt page off k win).boot = s.boot := rfl
@[simp] theorem State.addCnt_lastMsg (s : State) (page off k win : Nat) : (s.addCnt page off k win).lastMsg = s.lastMsg := rfl
@[simp] theorem State.addCnt_msgPending (s : State) (page off k win : Nat) : (s.addCnt page off k win).msgPending = s.msgPending := rfl

@[simp] theorem State.send_pending (s : State) (o : Output) : (s.send o).pending = s.pending := rfl
@[simp] theorem State.send_fresh (s : State) (o : Output) : (s.send o).fresh = s.fresh := rfl
@[simp] theorem State.send_time (s : State) (o : Output) : (s.send o).time = s.time := rfl
@[simp] theorem State.send_phase (s : State) (o : Output) : (s.send o).phase = s.phase := rfl
@[simp] theorem State.send_fuses (s : State) (o : Output) : (s.send o).fuses = s.fuses := rfl
@[simp] theorem State.send_pins (s : State) (o : Output) : (s.send o).pins = s.pins := rfl
@[simp] theorem State.send_regs (s : State) (o : Output) : (s.send o).regs = s.regs := rfl
@[simp] theorem State.send_sels (s : State) (o : Output) : (s.send o).sels = s.sels := rfl
@[simp] theorem State.send_cnt (s : State) (o : Output) : (s.send o).cnt = s.cnt := rfl
@[simp] theorem State.send_latch (s : State) (o : Output) : (s.send o).latch = s.latch := rfl
@[simp] theorem State.send_rights (s : State) (o : Output) : (s.send o).rights = s.rights := rfl
@[simp] theorem State.send_parts (s : State) (o : Output) : (s.send o).parts = s.parts := rfl
@[simp] theorem State.send_convs (s : State) (o : Output) : (s.send o).convs = s.convs := rfl
@[simp] theorem State.send_streams (s : State) (o : Output) : (s.send o).streams = s.streams := rfl
@[simp] theorem State.send_pages (s : State) (o : Output) : (s.send o).pages = s.pages := rfl
@[simp] theorem State.send_masks (s : State) (o : Output) : (s.send o).masks = s.masks := rfl
@[simp] theorem State.send_reqs (s : State) (o : Output) : (s.send o).reqs = s.reqs := rfl
@[simp] theorem State.send_nextReq (s : State) (o : Output) : (s.send o).nextReq = s.nextReq := rfl
@[simp] theorem State.send_done (s : State) (o : Output) : (s.send o).done = s.done := rfl
@[simp] theorem State.send_queues (s : State) (o : Output) : (s.send o).queues = s.queues := rfl
@[simp] theorem State.send_eqs (s : State) (o : Output) : (s.send o).eqs = s.eqs := rfl
@[simp] theorem State.send_srqs (s : State) (o : Output) : (s.send o).srqs = s.srqs := rfl
@[simp] theorem State.send_primary (s : State) (o : Output) : (s.send o).primary = s.primary := rfl
@[simp] theorem State.send_peerLost (s : State) (o : Output) : (s.send o).peerLost = s.peerLost := rfl
@[simp] theorem State.send_ports (s : State) (o : Output) : (s.send o).ports = s.ports := rfl
@[simp] theorem State.send_pods (s : State) (o : Output) : (s.send o).pods = s.pods := rfl
@[simp] theorem State.send_regions (s : State) (o : Output) : (s.send o).regions = s.regions := rfl
@[simp] theorem State.send_links (s : State) (o : Output) : (s.send o).links = s.links := rfl
@[simp] theorem State.send_prof (s : State) (o : Output) : (s.send o).prof = s.prof := rfl
@[simp] theorem State.send_mex (s : State) (o : Output) : (s.send o).mex = s.mex := rfl
@[simp] theorem State.send_tier (s : State) (o : Output) : (s.send o).tier = s.tier := rfl
@[simp] theorem State.send_flash (s : State) (o : Output) : (s.send o).flash = s.flash := rfl
@[simp] theorem State.send_pft (s : State) (o : Output) : (s.send o).pft = s.pft := rfl
@[simp] theorem State.send_tc (s : State) (o : Output) : (s.send o).tc = s.tc := rfl
@[simp] theorem State.send_sec (s : State) (o : Output) : (s.send o).sec = s.sec := rfl
@[simp] theorem State.send_log (s : State) (o : Output) : (s.send o).log = s.log := rfl
@[simp] theorem State.send_res (s : State) (o : Output) : (s.send o).res = s.res := rfl
@[simp] theorem State.send_cmp (s : State) (o : Output) : (s.send o).cmp = s.cmp := rfl
@[simp] theorem State.send_pwr (s : State) (o : Output) : (s.send o).pwr = s.pwr := rfl
@[simp] theorem State.send_boot (s : State) (o : Output) : (s.send o).boot = s.boot := rfl
@[simp] theorem State.send_lastMsg (s : State) (o : Output) : (s.send o).lastMsg = s.lastMsg := rfl
@[simp] theorem State.send_msgPending (s : State) (o : Output) : (s.send o).msgPending = s.msgPending := rfl

@[simp] theorem State.setEq_pending (s : State) (port fn : Nat) (q : EventQueue) : (s.setEq port fn q).pending = s.pending := rfl
@[simp] theorem State.setEq_out (s : State) (port fn : Nat) (q : EventQueue) : (s.setEq port fn q).out = s.out := rfl
@[simp] theorem State.setEq_fresh (s : State) (port fn : Nat) (q : EventQueue) : (s.setEq port fn q).fresh = s.fresh := rfl
@[simp] theorem State.setEq_time (s : State) (port fn : Nat) (q : EventQueue) : (s.setEq port fn q).time = s.time := rfl
@[simp] theorem State.setEq_phase (s : State) (port fn : Nat) (q : EventQueue) : (s.setEq port fn q).phase = s.phase := rfl
@[simp] theorem State.setEq_fuses (s : State) (port fn : Nat) (q : EventQueue) : (s.setEq port fn q).fuses = s.fuses := rfl
@[simp] theorem State.setEq_pins (s : State) (port fn : Nat) (q : EventQueue) : (s.setEq port fn q).pins = s.pins := rfl
@[simp] theorem State.setEq_regs (s : State) (port fn : Nat) (q : EventQueue) : (s.setEq port fn q).regs = s.regs := rfl
@[simp] theorem State.setEq_sels (s : State) (port fn : Nat) (q : EventQueue) : (s.setEq port fn q).sels = s.sels := rfl
@[simp] theorem State.setEq_cnt (s : State) (port fn : Nat) (q : EventQueue) : (s.setEq port fn q).cnt = s.cnt := rfl
@[simp] theorem State.setEq_latch (s : State) (port fn : Nat) (q : EventQueue) : (s.setEq port fn q).latch = s.latch := rfl
@[simp] theorem State.setEq_rights (s : State) (port fn : Nat) (q : EventQueue) : (s.setEq port fn q).rights = s.rights := rfl
@[simp] theorem State.setEq_parts (s : State) (port fn : Nat) (q : EventQueue) : (s.setEq port fn q).parts = s.parts := rfl
@[simp] theorem State.setEq_convs (s : State) (port fn : Nat) (q : EventQueue) : (s.setEq port fn q).convs = s.convs := rfl
@[simp] theorem State.setEq_streams (s : State) (port fn : Nat) (q : EventQueue) : (s.setEq port fn q).streams = s.streams := rfl
@[simp] theorem State.setEq_pages (s : State) (port fn : Nat) (q : EventQueue) : (s.setEq port fn q).pages = s.pages := rfl
@[simp] theorem State.setEq_masks (s : State) (port fn : Nat) (q : EventQueue) : (s.setEq port fn q).masks = s.masks := rfl
@[simp] theorem State.setEq_reqs (s : State) (port fn : Nat) (q : EventQueue) : (s.setEq port fn q).reqs = s.reqs := rfl
@[simp] theorem State.setEq_nextReq (s : State) (port fn : Nat) (q : EventQueue) : (s.setEq port fn q).nextReq = s.nextReq := rfl
@[simp] theorem State.setEq_done (s : State) (port fn : Nat) (q : EventQueue) : (s.setEq port fn q).done = s.done := rfl
@[simp] theorem State.setEq_queues (s : State) (port fn : Nat) (q : EventQueue) : (s.setEq port fn q).queues = s.queues := rfl
@[simp] theorem State.setEq_srqs (s : State) (port fn : Nat) (q : EventQueue) : (s.setEq port fn q).srqs = s.srqs := rfl
@[simp] theorem State.setEq_primary (s : State) (port fn : Nat) (q : EventQueue) : (s.setEq port fn q).primary = s.primary := rfl
@[simp] theorem State.setEq_peerLost (s : State) (port fn : Nat) (q : EventQueue) : (s.setEq port fn q).peerLost = s.peerLost := rfl
@[simp] theorem State.setEq_ports (s : State) (port fn : Nat) (q : EventQueue) : (s.setEq port fn q).ports = s.ports := rfl
@[simp] theorem State.setEq_pods (s : State) (port fn : Nat) (q : EventQueue) : (s.setEq port fn q).pods = s.pods := rfl
@[simp] theorem State.setEq_regions (s : State) (port fn : Nat) (q : EventQueue) : (s.setEq port fn q).regions = s.regions := rfl
@[simp] theorem State.setEq_links (s : State) (port fn : Nat) (q : EventQueue) : (s.setEq port fn q).links = s.links := rfl
@[simp] theorem State.setEq_prof (s : State) (port fn : Nat) (q : EventQueue) : (s.setEq port fn q).prof = s.prof := rfl
@[simp] theorem State.setEq_mex (s : State) (port fn : Nat) (q : EventQueue) : (s.setEq port fn q).mex = s.mex := rfl
@[simp] theorem State.setEq_tier (s : State) (port fn : Nat) (q : EventQueue) : (s.setEq port fn q).tier = s.tier := rfl
@[simp] theorem State.setEq_flash (s : State) (port fn : Nat) (q : EventQueue) : (s.setEq port fn q).flash = s.flash := rfl
@[simp] theorem State.setEq_pft (s : State) (port fn : Nat) (q : EventQueue) : (s.setEq port fn q).pft = s.pft := rfl
@[simp] theorem State.setEq_tc (s : State) (port fn : Nat) (q : EventQueue) : (s.setEq port fn q).tc = s.tc := rfl
@[simp] theorem State.setEq_sec (s : State) (port fn : Nat) (q : EventQueue) : (s.setEq port fn q).sec = s.sec := rfl
@[simp] theorem State.setEq_log (s : State) (port fn : Nat) (q : EventQueue) : (s.setEq port fn q).log = s.log := rfl
@[simp] theorem State.setEq_res (s : State) (port fn : Nat) (q : EventQueue) : (s.setEq port fn q).res = s.res := rfl
@[simp] theorem State.setEq_cmp (s : State) (port fn : Nat) (q : EventQueue) : (s.setEq port fn q).cmp = s.cmp := rfl
@[simp] theorem State.setEq_pwr (s : State) (port fn : Nat) (q : EventQueue) : (s.setEq port fn q).pwr = s.pwr := rfl
@[simp] theorem State.setEq_boot (s : State) (port fn : Nat) (q : EventQueue) : (s.setEq port fn q).boot = s.boot := rfl
@[simp] theorem State.setEq_lastMsg (s : State) (port fn : Nat) (q : EventQueue) : (s.setEq port fn q).lastMsg = s.lastMsg := rfl
@[simp] theorem State.setEq_msgPending (s : State) (port fn : Nat) (q : EventQueue) : (s.setEq port fn q).msgPending = s.msgPending := rfl

@[simp] theorem State.setQueue_pending (s : State) (port qp : Nat) (q : Queue) : (s.setQueue port qp q).pending = s.pending := rfl
@[simp] theorem State.setQueue_out (s : State) (port qp : Nat) (q : Queue) : (s.setQueue port qp q).out = s.out := rfl
@[simp] theorem State.setQueue_fresh (s : State) (port qp : Nat) (q : Queue) : (s.setQueue port qp q).fresh = s.fresh := rfl
@[simp] theorem State.setQueue_time (s : State) (port qp : Nat) (q : Queue) : (s.setQueue port qp q).time = s.time := rfl
@[simp] theorem State.setQueue_phase (s : State) (port qp : Nat) (q : Queue) : (s.setQueue port qp q).phase = s.phase := rfl
@[simp] theorem State.setQueue_fuses (s : State) (port qp : Nat) (q : Queue) : (s.setQueue port qp q).fuses = s.fuses := rfl
@[simp] theorem State.setQueue_pins (s : State) (port qp : Nat) (q : Queue) : (s.setQueue port qp q).pins = s.pins := rfl
@[simp] theorem State.setQueue_regs (s : State) (port qp : Nat) (q : Queue) : (s.setQueue port qp q).regs = s.regs := rfl
@[simp] theorem State.setQueue_sels (s : State) (port qp : Nat) (q : Queue) : (s.setQueue port qp q).sels = s.sels := rfl
@[simp] theorem State.setQueue_cnt (s : State) (port qp : Nat) (q : Queue) : (s.setQueue port qp q).cnt = s.cnt := rfl
@[simp] theorem State.setQueue_latch (s : State) (port qp : Nat) (q : Queue) : (s.setQueue port qp q).latch = s.latch := rfl
@[simp] theorem State.setQueue_rights (s : State) (port qp : Nat) (q : Queue) : (s.setQueue port qp q).rights = s.rights := rfl
@[simp] theorem State.setQueue_parts (s : State) (port qp : Nat) (q : Queue) : (s.setQueue port qp q).parts = s.parts := rfl
@[simp] theorem State.setQueue_convs (s : State) (port qp : Nat) (q : Queue) : (s.setQueue port qp q).convs = s.convs := rfl
@[simp] theorem State.setQueue_streams (s : State) (port qp : Nat) (q : Queue) : (s.setQueue port qp q).streams = s.streams := rfl
@[simp] theorem State.setQueue_pages (s : State) (port qp : Nat) (q : Queue) : (s.setQueue port qp q).pages = s.pages := rfl
@[simp] theorem State.setQueue_masks (s : State) (port qp : Nat) (q : Queue) : (s.setQueue port qp q).masks = s.masks := rfl
@[simp] theorem State.setQueue_reqs (s : State) (port qp : Nat) (q : Queue) : (s.setQueue port qp q).reqs = s.reqs := rfl
@[simp] theorem State.setQueue_nextReq (s : State) (port qp : Nat) (q : Queue) : (s.setQueue port qp q).nextReq = s.nextReq := rfl
@[simp] theorem State.setQueue_done (s : State) (port qp : Nat) (q : Queue) : (s.setQueue port qp q).done = s.done := rfl
@[simp] theorem State.setQueue_eqs (s : State) (port qp : Nat) (q : Queue) : (s.setQueue port qp q).eqs = s.eqs := rfl
@[simp] theorem State.setQueue_srqs (s : State) (port qp : Nat) (q : Queue) : (s.setQueue port qp q).srqs = s.srqs := rfl
@[simp] theorem State.setQueue_primary (s : State) (port qp : Nat) (q : Queue) : (s.setQueue port qp q).primary = s.primary := rfl
@[simp] theorem State.setQueue_peerLost (s : State) (port qp : Nat) (q : Queue) : (s.setQueue port qp q).peerLost = s.peerLost := rfl
@[simp] theorem State.setQueue_ports (s : State) (port qp : Nat) (q : Queue) : (s.setQueue port qp q).ports = s.ports := rfl
@[simp] theorem State.setQueue_pods (s : State) (port qp : Nat) (q : Queue) : (s.setQueue port qp q).pods = s.pods := rfl
@[simp] theorem State.setQueue_regions (s : State) (port qp : Nat) (q : Queue) : (s.setQueue port qp q).regions = s.regions := rfl
@[simp] theorem State.setQueue_links (s : State) (port qp : Nat) (q : Queue) : (s.setQueue port qp q).links = s.links := rfl
@[simp] theorem State.setQueue_prof (s : State) (port qp : Nat) (q : Queue) : (s.setQueue port qp q).prof = s.prof := rfl
@[simp] theorem State.setQueue_mex (s : State) (port qp : Nat) (q : Queue) : (s.setQueue port qp q).mex = s.mex := rfl
@[simp] theorem State.setQueue_tier (s : State) (port qp : Nat) (q : Queue) : (s.setQueue port qp q).tier = s.tier := rfl
@[simp] theorem State.setQueue_flash (s : State) (port qp : Nat) (q : Queue) : (s.setQueue port qp q).flash = s.flash := rfl
@[simp] theorem State.setQueue_pft (s : State) (port qp : Nat) (q : Queue) : (s.setQueue port qp q).pft = s.pft := rfl
@[simp] theorem State.setQueue_tc (s : State) (port qp : Nat) (q : Queue) : (s.setQueue port qp q).tc = s.tc := rfl
@[simp] theorem State.setQueue_sec (s : State) (port qp : Nat) (q : Queue) : (s.setQueue port qp q).sec = s.sec := rfl
@[simp] theorem State.setQueue_log (s : State) (port qp : Nat) (q : Queue) : (s.setQueue port qp q).log = s.log := rfl
@[simp] theorem State.setQueue_res (s : State) (port qp : Nat) (q : Queue) : (s.setQueue port qp q).res = s.res := rfl
@[simp] theorem State.setQueue_cmp (s : State) (port qp : Nat) (q : Queue) : (s.setQueue port qp q).cmp = s.cmp := rfl
@[simp] theorem State.setQueue_pwr (s : State) (port qp : Nat) (q : Queue) : (s.setQueue port qp q).pwr = s.pwr := rfl
@[simp] theorem State.setQueue_boot (s : State) (port qp : Nat) (q : Queue) : (s.setQueue port qp q).boot = s.boot := rfl
@[simp] theorem State.setQueue_lastMsg (s : State) (port qp : Nat) (q : Queue) : (s.setQueue port qp q).lastMsg = s.lastMsg := rfl
@[simp] theorem State.setQueue_msgPending (s : State) (port qp : Nat) (q : Queue) : (s.setQueue port qp q).msgPending = s.msgPending := rfl

@[simp] theorem State.setConn_pending (s : State) (i : Nat) (c : Conn) : (s.setConn i c).pending = s.pending := rfl
@[simp] theorem State.setConn_out (s : State) (i : Nat) (c : Conn) : (s.setConn i c).out = s.out := rfl
@[simp] theorem State.setConn_fresh (s : State) (i : Nat) (c : Conn) : (s.setConn i c).fresh = s.fresh := rfl
@[simp] theorem State.setConn_time (s : State) (i : Nat) (c : Conn) : (s.setConn i c).time = s.time := rfl
@[simp] theorem State.setConn_phase (s : State) (i : Nat) (c : Conn) : (s.setConn i c).phase = s.phase := rfl
@[simp] theorem State.setConn_fuses (s : State) (i : Nat) (c : Conn) : (s.setConn i c).fuses = s.fuses := rfl
@[simp] theorem State.setConn_pins (s : State) (i : Nat) (c : Conn) : (s.setConn i c).pins = s.pins := rfl
@[simp] theorem State.setConn_regs (s : State) (i : Nat) (c : Conn) : (s.setConn i c).regs = s.regs := rfl
@[simp] theorem State.setConn_sels (s : State) (i : Nat) (c : Conn) : (s.setConn i c).sels = s.sels := rfl
@[simp] theorem State.setConn_cnt (s : State) (i : Nat) (c : Conn) : (s.setConn i c).cnt = s.cnt := rfl
@[simp] theorem State.setConn_latch (s : State) (i : Nat) (c : Conn) : (s.setConn i c).latch = s.latch := rfl
@[simp] theorem State.setConn_rights (s : State) (i : Nat) (c : Conn) : (s.setConn i c).rights = s.rights := rfl
@[simp] theorem State.setConn_parts (s : State) (i : Nat) (c : Conn) : (s.setConn i c).parts = s.parts := rfl
@[simp] theorem State.setConn_convs (s : State) (i : Nat) (c : Conn) : (s.setConn i c).convs = s.convs := rfl
@[simp] theorem State.setConn_streams (s : State) (i : Nat) (c : Conn) : (s.setConn i c).streams = s.streams := rfl
@[simp] theorem State.setConn_pages (s : State) (i : Nat) (c : Conn) : (s.setConn i c).pages = s.pages := rfl
@[simp] theorem State.setConn_masks (s : State) (i : Nat) (c : Conn) : (s.setConn i c).masks = s.masks := rfl
@[simp] theorem State.setConn_reqs (s : State) (i : Nat) (c : Conn) : (s.setConn i c).reqs = s.reqs := rfl
@[simp] theorem State.setConn_nextReq (s : State) (i : Nat) (c : Conn) : (s.setConn i c).nextReq = s.nextReq := rfl
@[simp] theorem State.setConn_done (s : State) (i : Nat) (c : Conn) : (s.setConn i c).done = s.done := rfl
@[simp] theorem State.setConn_queues (s : State) (i : Nat) (c : Conn) : (s.setConn i c).queues = s.queues := rfl
@[simp] theorem State.setConn_eqs (s : State) (i : Nat) (c : Conn) : (s.setConn i c).eqs = s.eqs := rfl
@[simp] theorem State.setConn_srqs (s : State) (i : Nat) (c : Conn) : (s.setConn i c).srqs = s.srqs := rfl
@[simp] theorem State.setConn_primary (s : State) (i : Nat) (c : Conn) : (s.setConn i c).primary = s.primary := rfl
@[simp] theorem State.setConn_peerLost (s : State) (i : Nat) (c : Conn) : (s.setConn i c).peerLost = s.peerLost := rfl
@[simp] theorem State.setConn_ports (s : State) (i : Nat) (c : Conn) : (s.setConn i c).ports = s.ports := rfl
@[simp] theorem State.setConn_pods (s : State) (i : Nat) (c : Conn) : (s.setConn i c).pods = s.pods := rfl
@[simp] theorem State.setConn_regions (s : State) (i : Nat) (c : Conn) : (s.setConn i c).regions = s.regions := rfl
@[simp] theorem State.setConn_links (s : State) (i : Nat) (c : Conn) : (s.setConn i c).links = s.links := rfl
@[simp] theorem State.setConn_prof (s : State) (i : Nat) (c : Conn) : (s.setConn i c).prof = s.prof := rfl
@[simp] theorem State.setConn_mex (s : State) (i : Nat) (c : Conn) : (s.setConn i c).mex = s.mex := rfl
@[simp] theorem State.setConn_tier (s : State) (i : Nat) (c : Conn) : (s.setConn i c).tier = s.tier := rfl
@[simp] theorem State.setConn_flash (s : State) (i : Nat) (c : Conn) : (s.setConn i c).flash = s.flash := rfl
@[simp] theorem State.setConn_tc (s : State) (i : Nat) (c : Conn) : (s.setConn i c).tc = s.tc := rfl
@[simp] theorem State.setConn_sec (s : State) (i : Nat) (c : Conn) : (s.setConn i c).sec = s.sec := rfl
@[simp] theorem State.setConn_log (s : State) (i : Nat) (c : Conn) : (s.setConn i c).log = s.log := rfl
@[simp] theorem State.setConn_res (s : State) (i : Nat) (c : Conn) : (s.setConn i c).res = s.res := rfl
@[simp] theorem State.setConn_cmp (s : State) (i : Nat) (c : Conn) : (s.setConn i c).cmp = s.cmp := rfl
@[simp] theorem State.setConn_pwr (s : State) (i : Nat) (c : Conn) : (s.setConn i c).pwr = s.pwr := rfl
@[simp] theorem State.setConn_boot (s : State) (i : Nat) (c : Conn) : (s.setConn i c).boot = s.boot := rfl
@[simp] theorem State.setConn_lastMsg (s : State) (i : Nat) (c : Conn) : (s.setConn i c).lastMsg = s.lastMsg := rfl
@[simp] theorem State.setConn_msgPending (s : State) (i : Nat) (c : Conn) : (s.setConn i c).msgPending = s.msgPending := rfl

@[simp] theorem State.setRight_pending (s : State) (master target r : Nat) : (s.setRight master target r).pending = s.pending := rfl
@[simp] theorem State.setRight_out (s : State) (master target r : Nat) : (s.setRight master target r).out = s.out := rfl
@[simp] theorem State.setRight_fresh (s : State) (master target r : Nat) : (s.setRight master target r).fresh = s.fresh := rfl
@[simp] theorem State.setRight_time (s : State) (master target r : Nat) : (s.setRight master target r).time = s.time := rfl
@[simp] theorem State.setRight_phase (s : State) (master target r : Nat) : (s.setRight master target r).phase = s.phase := rfl
@[simp] theorem State.setRight_fuses (s : State) (master target r : Nat) : (s.setRight master target r).fuses = s.fuses := rfl
@[simp] theorem State.setRight_pins (s : State) (master target r : Nat) : (s.setRight master target r).pins = s.pins := rfl
@[simp] theorem State.setRight_regs (s : State) (master target r : Nat) : (s.setRight master target r).regs = s.regs := rfl
@[simp] theorem State.setRight_sels (s : State) (master target r : Nat) : (s.setRight master target r).sels = s.sels := rfl
@[simp] theorem State.setRight_cnt (s : State) (master target r : Nat) : (s.setRight master target r).cnt = s.cnt := rfl
@[simp] theorem State.setRight_latch (s : State) (master target r : Nat) : (s.setRight master target r).latch = s.latch := rfl
@[simp] theorem State.setRight_parts (s : State) (master target r : Nat) : (s.setRight master target r).parts = s.parts := rfl
@[simp] theorem State.setRight_convs (s : State) (master target r : Nat) : (s.setRight master target r).convs = s.convs := rfl
@[simp] theorem State.setRight_streams (s : State) (master target r : Nat) : (s.setRight master target r).streams = s.streams := rfl
@[simp] theorem State.setRight_pages (s : State) (master target r : Nat) : (s.setRight master target r).pages = s.pages := rfl
@[simp] theorem State.setRight_masks (s : State) (master target r : Nat) : (s.setRight master target r).masks = s.masks := rfl
@[simp] theorem State.setRight_reqs (s : State) (master target r : Nat) : (s.setRight master target r).reqs = s.reqs := rfl
@[simp] theorem State.setRight_nextReq (s : State) (master target r : Nat) : (s.setRight master target r).nextReq = s.nextReq := rfl
@[simp] theorem State.setRight_done (s : State) (master target r : Nat) : (s.setRight master target r).done = s.done := rfl
@[simp] theorem State.setRight_queues (s : State) (master target r : Nat) : (s.setRight master target r).queues = s.queues := rfl
@[simp] theorem State.setRight_eqs (s : State) (master target r : Nat) : (s.setRight master target r).eqs = s.eqs := rfl
@[simp] theorem State.setRight_srqs (s : State) (master target r : Nat) : (s.setRight master target r).srqs = s.srqs := rfl
@[simp] theorem State.setRight_primary (s : State) (master target r : Nat) : (s.setRight master target r).primary = s.primary := rfl
@[simp] theorem State.setRight_peerLost (s : State) (master target r : Nat) : (s.setRight master target r).peerLost = s.peerLost := rfl
@[simp] theorem State.setRight_ports (s : State) (master target r : Nat) : (s.setRight master target r).ports = s.ports := rfl
@[simp] theorem State.setRight_pods (s : State) (master target r : Nat) : (s.setRight master target r).pods = s.pods := rfl
@[simp] theorem State.setRight_regions (s : State) (master target r : Nat) : (s.setRight master target r).regions = s.regions := rfl
@[simp] theorem State.setRight_links (s : State) (master target r : Nat) : (s.setRight master target r).links = s.links := rfl
@[simp] theorem State.setRight_prof (s : State) (master target r : Nat) : (s.setRight master target r).prof = s.prof := rfl
@[simp] theorem State.setRight_mex (s : State) (master target r : Nat) : (s.setRight master target r).mex = s.mex := rfl
@[simp] theorem State.setRight_tier (s : State) (master target r : Nat) : (s.setRight master target r).tier = s.tier := rfl
@[simp] theorem State.setRight_flash (s : State) (master target r : Nat) : (s.setRight master target r).flash = s.flash := rfl
@[simp] theorem State.setRight_pft (s : State) (master target r : Nat) : (s.setRight master target r).pft = s.pft := rfl
@[simp] theorem State.setRight_tc (s : State) (master target r : Nat) : (s.setRight master target r).tc = s.tc := rfl
@[simp] theorem State.setRight_sec (s : State) (master target r : Nat) : (s.setRight master target r).sec = s.sec := rfl
@[simp] theorem State.setRight_log (s : State) (master target r : Nat) : (s.setRight master target r).log = s.log := rfl
@[simp] theorem State.setRight_res (s : State) (master target r : Nat) : (s.setRight master target r).res = s.res := rfl
@[simp] theorem State.setRight_cmp (s : State) (master target r : Nat) : (s.setRight master target r).cmp = s.cmp := rfl
@[simp] theorem State.setRight_pwr (s : State) (master target r : Nat) : (s.setRight master target r).pwr = s.pwr := rfl
@[simp] theorem State.setRight_boot (s : State) (master target r : Nat) : (s.setRight master target r).boot = s.boot := rfl
@[simp] theorem State.setRight_lastMsg (s : State) (master target r : Nat) : (s.setRight master target r).lastMsg = s.lastMsg := rfl
@[simp] theorem State.setRight_msgPending (s : State) (master target r : Nat) : (s.setRight master target r).msgPending = s.msgPending := rfl

@[simp] theorem State.send_out (s : State) (o : Output) : (s.send o).out = s.out ++ [o] := rfl

/-! ## The interrupt summary and the causes -/

/-- What the interrupt summary may change. -/
theorem evalInt_eq (s : State) :
    evalInt s = { s with regs := (evalInt s).regs, out := (evalInt s).out, lastMsg := (evalInt s).lastMsg,
                         msgPending := (evalInt s).msgPending } := by
  generalize ht : evalInt s = t
  unfold evalInt at ht
  simp only at ht
  repeat' split at ht
  all_goals subst ht; rfl

@[simp] theorem evalInt_pending (s : State) : (evalInt s).pending = s.pending := by rw [evalInt_eq]
@[simp] theorem evalInt_fresh (s : State) : (evalInt s).fresh = s.fresh := by rw [evalInt_eq]
@[simp] theorem evalInt_time (s : State) : (evalInt s).time = s.time := by rw [evalInt_eq]
@[simp] theorem evalInt_phase (s : State) : (evalInt s).phase = s.phase := by rw [evalInt_eq]
@[simp] theorem evalInt_fuses (s : State) : (evalInt s).fuses = s.fuses := by rw [evalInt_eq]
@[simp] theorem evalInt_pins (s : State) : (evalInt s).pins = s.pins := by rw [evalInt_eq]
@[simp] theorem evalInt_sels (s : State) : (evalInt s).sels = s.sels := by rw [evalInt_eq]
@[simp] theorem evalInt_cnt (s : State) : (evalInt s).cnt = s.cnt := by rw [evalInt_eq]
@[simp] theorem evalInt_latch (s : State) : (evalInt s).latch = s.latch := by rw [evalInt_eq]
@[simp] theorem evalInt_rights (s : State) : (evalInt s).rights = s.rights := by rw [evalInt_eq]
@[simp] theorem evalInt_parts (s : State) : (evalInt s).parts = s.parts := by rw [evalInt_eq]
@[simp] theorem evalInt_convs (s : State) : (evalInt s).convs = s.convs := by rw [evalInt_eq]
@[simp] theorem evalInt_streams (s : State) : (evalInt s).streams = s.streams := by rw [evalInt_eq]
@[simp] theorem evalInt_pages (s : State) : (evalInt s).pages = s.pages := by rw [evalInt_eq]
@[simp] theorem evalInt_masks (s : State) : (evalInt s).masks = s.masks := by rw [evalInt_eq]
@[simp] theorem evalInt_reqs (s : State) : (evalInt s).reqs = s.reqs := by rw [evalInt_eq]
@[simp] theorem evalInt_nextReq (s : State) : (evalInt s).nextReq = s.nextReq := by rw [evalInt_eq]
@[simp] theorem evalInt_done (s : State) : (evalInt s).done = s.done := by rw [evalInt_eq]
@[simp] theorem evalInt_queues (s : State) : (evalInt s).queues = s.queues := by rw [evalInt_eq]
@[simp] theorem evalInt_eqs (s : State) : (evalInt s).eqs = s.eqs := by rw [evalInt_eq]
@[simp] theorem evalInt_srqs (s : State) : (evalInt s).srqs = s.srqs := by rw [evalInt_eq]
@[simp] theorem evalInt_primary (s : State) : (evalInt s).primary = s.primary := by rw [evalInt_eq]
@[simp] theorem evalInt_peerLost (s : State) : (evalInt s).peerLost = s.peerLost := by rw [evalInt_eq]
@[simp] theorem evalInt_ports (s : State) : (evalInt s).ports = s.ports := by rw [evalInt_eq]
@[simp] theorem evalInt_pods (s : State) : (evalInt s).pods = s.pods := by rw [evalInt_eq]
@[simp] theorem evalInt_regions (s : State) : (evalInt s).regions = s.regions := by rw [evalInt_eq]
@[simp] theorem evalInt_links (s : State) : (evalInt s).links = s.links := by rw [evalInt_eq]
@[simp] theorem evalInt_prof (s : State) : (evalInt s).prof = s.prof := by rw [evalInt_eq]
@[simp] theorem evalInt_mex (s : State) : (evalInt s).mex = s.mex := by rw [evalInt_eq]
@[simp] theorem evalInt_tier (s : State) : (evalInt s).tier = s.tier := by rw [evalInt_eq]
@[simp] theorem evalInt_flash (s : State) : (evalInt s).flash = s.flash := by rw [evalInt_eq]
@[simp] theorem evalInt_pft (s : State) : (evalInt s).pft = s.pft := by rw [evalInt_eq]
@[simp] theorem evalInt_tc (s : State) : (evalInt s).tc = s.tc := by rw [evalInt_eq]
@[simp] theorem evalInt_sec (s : State) : (evalInt s).sec = s.sec := by rw [evalInt_eq]
@[simp] theorem evalInt_log (s : State) : (evalInt s).log = s.log := by rw [evalInt_eq]
@[simp] theorem evalInt_res (s : State) : (evalInt s).res = s.res := by rw [evalInt_eq]
@[simp] theorem evalInt_cmp (s : State) : (evalInt s).cmp = s.cmp := by rw [evalInt_eq]
@[simp] theorem evalInt_pwr (s : State) : (evalInt s).pwr = s.pwr := by rw [evalInt_eq]
@[simp] theorem evalInt_boot (s : State) : (evalInt s).boot = s.boot := by rw [evalInt_eq]

@[simp] theorem setCause_pending (page bit : Nat) (s : State) : (setCause page bit s).pending = s.pending := evalInt_pending _
@[simp] theorem setCause_fresh (page bit : Nat) (s : State) : (setCause page bit s).fresh = s.fresh := evalInt_fresh _
@[simp] theorem setCause_time (page bit : Nat) (s : State) : (setCause page bit s).time = s.time := evalInt_time _
@[simp] theorem setCause_phase (page bit : Nat) (s : State) : (setCause page bit s).phase = s.phase := evalInt_phase _
@[simp] theorem setCause_fuses (page bit : Nat) (s : State) : (setCause page bit s).fuses = s.fuses := evalInt_fuses _
@[simp] theorem setCause_pins (page bit : Nat) (s : State) : (setCause page bit s).pins = s.pins := evalInt_pins _
@[simp] theorem setCause_sels (page bit : Nat) (s : State) : (setCause page bit s).sels = s.sels := evalInt_sels _
@[simp] theorem setCause_cnt (page bit : Nat) (s : State) : (setCause page bit s).cnt = s.cnt := evalInt_cnt _
@[simp] theorem setCause_latch (page bit : Nat) (s : State) : (setCause page bit s).latch = s.latch := evalInt_latch _
@[simp] theorem setCause_rights (page bit : Nat) (s : State) : (setCause page bit s).rights = s.rights := evalInt_rights _
@[simp] theorem setCause_parts (page bit : Nat) (s : State) : (setCause page bit s).parts = s.parts := evalInt_parts _
@[simp] theorem setCause_convs (page bit : Nat) (s : State) : (setCause page bit s).convs = s.convs := evalInt_convs _
@[simp] theorem setCause_streams (page bit : Nat) (s : State) : (setCause page bit s).streams = s.streams := evalInt_streams _
@[simp] theorem setCause_pages (page bit : Nat) (s : State) : (setCause page bit s).pages = s.pages := evalInt_pages _
@[simp] theorem setCause_masks (page bit : Nat) (s : State) : (setCause page bit s).masks = s.masks := evalInt_masks _
@[simp] theorem setCause_reqs (page bit : Nat) (s : State) : (setCause page bit s).reqs = s.reqs := evalInt_reqs _
@[simp] theorem setCause_nextReq (page bit : Nat) (s : State) : (setCause page bit s).nextReq = s.nextReq := evalInt_nextReq _
@[simp] theorem setCause_done (page bit : Nat) (s : State) : (setCause page bit s).done = s.done := evalInt_done _
@[simp] theorem setCause_queues (page bit : Nat) (s : State) : (setCause page bit s).queues = s.queues := evalInt_queues _
@[simp] theorem setCause_eqs (page bit : Nat) (s : State) : (setCause page bit s).eqs = s.eqs := evalInt_eqs _
@[simp] theorem setCause_srqs (page bit : Nat) (s : State) : (setCause page bit s).srqs = s.srqs := evalInt_srqs _
@[simp] theorem setCause_primary (page bit : Nat) (s : State) : (setCause page bit s).primary = s.primary := evalInt_primary _
@[simp] theorem setCause_peerLost (page bit : Nat) (s : State) : (setCause page bit s).peerLost = s.peerLost := evalInt_peerLost _
@[simp] theorem setCause_ports (page bit : Nat) (s : State) : (setCause page bit s).ports = s.ports := evalInt_ports _
@[simp] theorem setCause_pods (page bit : Nat) (s : State) : (setCause page bit s).pods = s.pods := evalInt_pods _
@[simp] theorem setCause_regions (page bit : Nat) (s : State) : (setCause page bit s).regions = s.regions := evalInt_regions _
@[simp] theorem setCause_links (page bit : Nat) (s : State) : (setCause page bit s).links = s.links := evalInt_links _
@[simp] theorem setCause_prof (page bit : Nat) (s : State) : (setCause page bit s).prof = s.prof := evalInt_prof _
@[simp] theorem setCause_mex (page bit : Nat) (s : State) : (setCause page bit s).mex = s.mex := evalInt_mex _
@[simp] theorem setCause_tier (page bit : Nat) (s : State) : (setCause page bit s).tier = s.tier := evalInt_tier _
@[simp] theorem setCause_flash (page bit : Nat) (s : State) : (setCause page bit s).flash = s.flash := evalInt_flash _
@[simp] theorem setCause_pft (page bit : Nat) (s : State) : (setCause page bit s).pft = s.pft := evalInt_pft _
@[simp] theorem setCause_tc (page bit : Nat) (s : State) : (setCause page bit s).tc = s.tc := evalInt_tc _
@[simp] theorem setCause_sec (page bit : Nat) (s : State) : (setCause page bit s).sec = s.sec := evalInt_sec _
@[simp] theorem setCause_log (page bit : Nat) (s : State) : (setCause page bit s).log = s.log := evalInt_log _
@[simp] theorem setCause_res (page bit : Nat) (s : State) : (setCause page bit s).res = s.res := evalInt_res _
@[simp] theorem setCause_cmp (page bit : Nat) (s : State) : (setCause page bit s).cmp = s.cmp := evalInt_cmp _
@[simp] theorem setCause_pwr (page bit : Nat) (s : State) : (setCause page bit s).pwr = s.pwr := evalInt_pwr _
@[simp] theorem setCause_boot (page bit : Nat) (s : State) : (setCause page bit s).boot = s.boot := evalInt_boot _

/-- A change-log record changes the log, and what a cause changes. -/
theorem appendRec_eq (seq master kind target offset old new : Nat) (s : State) :
    appendRec seq master kind target offset old new s
      = { s with log := (appendRec seq master kind target offset old new s).log,
                 regs := (appendRec seq master kind target offset old new s).regs,
                 out := (appendRec seq master kind target offset old new s).out,
                 lastMsg := (appendRec seq master kind target offset old new s).lastMsg,
                 msgPending := (appendRec seq master kind target offset old new s).msgPending } := by
  have h (p b : Nat) (u : State) : setCause p b u = { u with regs := (setCause p b u).regs, out := (setCause p b u).out, lastMsg := (setCause p b u).lastMsg, msgPending := (setCause p b u).msgPending } := by
    unfold setCause
    rw [evalInt_eq]
    rfl
  generalize ht : appendRec seq master kind target offset old new s = t
  unfold appendRec bumpMeas at ht
  simp only at ht
  rw [h pgLog 2, h pgSec 4] at ht
  split at ht
  all_goals subst ht; rfl

@[simp] theorem logRec_pending (master kind target offset old new : Nat) (s : State) :
    (logRec master kind target offset old new s).pending = s.pending := by unfold logRec; rw [appendRec_eq]
@[simp] theorem logRec_fresh (master kind target offset old new : Nat) (s : State) :
    (logRec master kind target offset old new s).fresh = s.fresh := by unfold logRec; rw [appendRec_eq]
@[simp] theorem logRec_time (master kind target offset old new : Nat) (s : State) :
    (logRec master kind target offset old new s).time = s.time := by unfold logRec; rw [appendRec_eq]
@[simp] theorem logRec_phase (master kind target offset old new : Nat) (s : State) :
    (logRec master kind target offset old new s).phase = s.phase := by unfold logRec; rw [appendRec_eq]
@[simp] theorem logRec_fuses (master kind target offset old new : Nat) (s : State) :
    (logRec master kind target offset old new s).fuses = s.fuses := by unfold logRec; rw [appendRec_eq]
@[simp] theorem logRec_pins (master kind target offset old new : Nat) (s : State) :
    (logRec master kind target offset old new s).pins = s.pins := by unfold logRec; rw [appendRec_eq]
@[simp] theorem logRec_sels (master kind target offset old new : Nat) (s : State) :
    (logRec master kind target offset old new s).sels = s.sels := by unfold logRec; rw [appendRec_eq]
@[simp] theorem logRec_cnt (master kind target offset old new : Nat) (s : State) :
    (logRec master kind target offset old new s).cnt = s.cnt := by unfold logRec; rw [appendRec_eq]
@[simp] theorem logRec_latch (master kind target offset old new : Nat) (s : State) :
    (logRec master kind target offset old new s).latch = s.latch := by unfold logRec; rw [appendRec_eq]
@[simp] theorem logRec_rights (master kind target offset old new : Nat) (s : State) :
    (logRec master kind target offset old new s).rights = s.rights := by unfold logRec; rw [appendRec_eq]
@[simp] theorem logRec_parts (master kind target offset old new : Nat) (s : State) :
    (logRec master kind target offset old new s).parts = s.parts := by unfold logRec; rw [appendRec_eq]
@[simp] theorem logRec_convs (master kind target offset old new : Nat) (s : State) :
    (logRec master kind target offset old new s).convs = s.convs := by unfold logRec; rw [appendRec_eq]
@[simp] theorem logRec_streams (master kind target offset old new : Nat) (s : State) :
    (logRec master kind target offset old new s).streams = s.streams := by unfold logRec; rw [appendRec_eq]
@[simp] theorem logRec_pages (master kind target offset old new : Nat) (s : State) :
    (logRec master kind target offset old new s).pages = s.pages := by unfold logRec; rw [appendRec_eq]
@[simp] theorem logRec_masks (master kind target offset old new : Nat) (s : State) :
    (logRec master kind target offset old new s).masks = s.masks := by unfold logRec; rw [appendRec_eq]
@[simp] theorem logRec_reqs (master kind target offset old new : Nat) (s : State) :
    (logRec master kind target offset old new s).reqs = s.reqs := by unfold logRec; rw [appendRec_eq]
@[simp] theorem logRec_nextReq (master kind target offset old new : Nat) (s : State) :
    (logRec master kind target offset old new s).nextReq = s.nextReq := by unfold logRec; rw [appendRec_eq]
@[simp] theorem logRec_done (master kind target offset old new : Nat) (s : State) :
    (logRec master kind target offset old new s).done = s.done := by unfold logRec; rw [appendRec_eq]
@[simp] theorem logRec_queues (master kind target offset old new : Nat) (s : State) :
    (logRec master kind target offset old new s).queues = s.queues := by unfold logRec; rw [appendRec_eq]
@[simp] theorem logRec_eqs (master kind target offset old new : Nat) (s : State) :
    (logRec master kind target offset old new s).eqs = s.eqs := by unfold logRec; rw [appendRec_eq]
@[simp] theorem logRec_srqs (master kind target offset old new : Nat) (s : State) :
    (logRec master kind target offset old new s).srqs = s.srqs := by unfold logRec; rw [appendRec_eq]
@[simp] theorem logRec_primary (master kind target offset old new : Nat) (s : State) :
    (logRec master kind target offset old new s).primary = s.primary := by unfold logRec; rw [appendRec_eq]
@[simp] theorem logRec_peerLost (master kind target offset old new : Nat) (s : State) :
    (logRec master kind target offset old new s).peerLost = s.peerLost := by unfold logRec; rw [appendRec_eq]
@[simp] theorem logRec_ports (master kind target offset old new : Nat) (s : State) :
    (logRec master kind target offset old new s).ports = s.ports := by unfold logRec; rw [appendRec_eq]
@[simp] theorem logRec_pods (master kind target offset old new : Nat) (s : State) :
    (logRec master kind target offset old new s).pods = s.pods := by unfold logRec; rw [appendRec_eq]
@[simp] theorem logRec_regions (master kind target offset old new : Nat) (s : State) :
    (logRec master kind target offset old new s).regions = s.regions := by unfold logRec; rw [appendRec_eq]
@[simp] theorem logRec_links (master kind target offset old new : Nat) (s : State) :
    (logRec master kind target offset old new s).links = s.links := by unfold logRec; rw [appendRec_eq]
@[simp] theorem logRec_prof (master kind target offset old new : Nat) (s : State) :
    (logRec master kind target offset old new s).prof = s.prof := by unfold logRec; rw [appendRec_eq]
@[simp] theorem logRec_mex (master kind target offset old new : Nat) (s : State) :
    (logRec master kind target offset old new s).mex = s.mex := by unfold logRec; rw [appendRec_eq]
@[simp] theorem logRec_tier (master kind target offset old new : Nat) (s : State) :
    (logRec master kind target offset old new s).tier = s.tier := by unfold logRec; rw [appendRec_eq]
@[simp] theorem logRec_flash (master kind target offset old new : Nat) (s : State) :
    (logRec master kind target offset old new s).flash = s.flash := by unfold logRec; rw [appendRec_eq]
@[simp] theorem logRec_pft (master kind target offset old new : Nat) (s : State) :
    (logRec master kind target offset old new s).pft = s.pft := by unfold logRec; rw [appendRec_eq]
@[simp] theorem logRec_tc (master kind target offset old new : Nat) (s : State) :
    (logRec master kind target offset old new s).tc = s.tc := by unfold logRec; rw [appendRec_eq]
@[simp] theorem logRec_sec (master kind target offset old new : Nat) (s : State) :
    (logRec master kind target offset old new s).sec = s.sec := by unfold logRec; rw [appendRec_eq]
@[simp] theorem logRec_res (master kind target offset old new : Nat) (s : State) :
    (logRec master kind target offset old new s).res = s.res := by unfold logRec; rw [appendRec_eq]
@[simp] theorem logRec_cmp (master kind target offset old new : Nat) (s : State) :
    (logRec master kind target offset old new s).cmp = s.cmp := by unfold logRec; rw [appendRec_eq]
@[simp] theorem logRec_pwr (master kind target offset old new : Nat) (s : State) :
    (logRec master kind target offset old new s).pwr = s.pwr := by unfold logRec; rw [appendRec_eq]
@[simp] theorem logRec_boot (master kind target offset old new : Nat) (s : State) :
    (logRec master kind target offset old new s).boot = s.boot := by unfold logRec; rw [appendRec_eq]
@[simp] theorem regRecord_pending (master page off old new sel : Nat) (s : State) :
    (regRecord master page off old new sel s).pending = s.pending := by unfold regRecord; simp
@[simp] theorem regRecord_fresh (master page off old new sel : Nat) (s : State) :
    (regRecord master page off old new sel s).fresh = s.fresh := by unfold regRecord; simp
@[simp] theorem regRecord_time (master page off old new sel : Nat) (s : State) :
    (regRecord master page off old new sel s).time = s.time := by unfold regRecord; simp
@[simp] theorem regRecord_phase (master page off old new sel : Nat) (s : State) :
    (regRecord master page off old new sel s).phase = s.phase := by unfold regRecord; simp
@[simp] theorem regRecord_fuses (master page off old new sel : Nat) (s : State) :
    (regRecord master page off old new sel s).fuses = s.fuses := by unfold regRecord; simp
@[simp] theorem regRecord_pins (master page off old new sel : Nat) (s : State) :
    (regRecord master page off old new sel s).pins = s.pins := by unfold regRecord; simp
@[simp] theorem regRecord_sels (master page off old new sel : Nat) (s : State) :
    (regRecord master page off old new sel s).sels = s.sels := by unfold regRecord; simp
@[simp] theorem regRecord_cnt (master page off old new sel : Nat) (s : State) :
    (regRecord master page off old new sel s).cnt = s.cnt := by unfold regRecord; simp
@[simp] theorem regRecord_latch (master page off old new sel : Nat) (s : State) :
    (regRecord master page off old new sel s).latch = s.latch := by unfold regRecord; simp
@[simp] theorem regRecord_rights (master page off old new sel : Nat) (s : State) :
    (regRecord master page off old new sel s).rights = s.rights := by unfold regRecord; simp
@[simp] theorem regRecord_parts (master page off old new sel : Nat) (s : State) :
    (regRecord master page off old new sel s).parts = s.parts := by unfold regRecord; simp
@[simp] theorem regRecord_convs (master page off old new sel : Nat) (s : State) :
    (regRecord master page off old new sel s).convs = s.convs := by unfold regRecord; simp
@[simp] theorem regRecord_streams (master page off old new sel : Nat) (s : State) :
    (regRecord master page off old new sel s).streams = s.streams := by unfold regRecord; simp
@[simp] theorem regRecord_pages (master page off old new sel : Nat) (s : State) :
    (regRecord master page off old new sel s).pages = s.pages := by unfold regRecord; simp
@[simp] theorem regRecord_masks (master page off old new sel : Nat) (s : State) :
    (regRecord master page off old new sel s).masks = s.masks := by unfold regRecord; simp
@[simp] theorem regRecord_reqs (master page off old new sel : Nat) (s : State) :
    (regRecord master page off old new sel s).reqs = s.reqs := by unfold regRecord; simp
@[simp] theorem regRecord_nextReq (master page off old new sel : Nat) (s : State) :
    (regRecord master page off old new sel s).nextReq = s.nextReq := by unfold regRecord; simp
@[simp] theorem regRecord_done (master page off old new sel : Nat) (s : State) :
    (regRecord master page off old new sel s).done = s.done := by unfold regRecord; simp
@[simp] theorem regRecord_queues (master page off old new sel : Nat) (s : State) :
    (regRecord master page off old new sel s).queues = s.queues := by unfold regRecord; simp
@[simp] theorem regRecord_eqs (master page off old new sel : Nat) (s : State) :
    (regRecord master page off old new sel s).eqs = s.eqs := by unfold regRecord; simp
@[simp] theorem regRecord_srqs (master page off old new sel : Nat) (s : State) :
    (regRecord master page off old new sel s).srqs = s.srqs := by unfold regRecord; simp
@[simp] theorem regRecord_primary (master page off old new sel : Nat) (s : State) :
    (regRecord master page off old new sel s).primary = s.primary := by unfold regRecord; simp
@[simp] theorem regRecord_peerLost (master page off old new sel : Nat) (s : State) :
    (regRecord master page off old new sel s).peerLost = s.peerLost := by unfold regRecord; simp
@[simp] theorem regRecord_ports (master page off old new sel : Nat) (s : State) :
    (regRecord master page off old new sel s).ports = s.ports := by unfold regRecord; simp
@[simp] theorem regRecord_pods (master page off old new sel : Nat) (s : State) :
    (regRecord master page off old new sel s).pods = s.pods := by unfold regRecord; simp
@[simp] theorem regRecord_regions (master page off old new sel : Nat) (s : State) :
    (regRecord master page off old new sel s).regions = s.regions := by unfold regRecord; simp
@[simp] theorem regRecord_links (master page off old new sel : Nat) (s : State) :
    (regRecord master page off old new sel s).links = s.links := by unfold regRecord; simp
@[simp] theorem regRecord_prof (master page off old new sel : Nat) (s : State) :
    (regRecord master page off old new sel s).prof = s.prof := by unfold regRecord; simp
@[simp] theorem regRecord_mex (master page off old new sel : Nat) (s : State) :
    (regRecord master page off old new sel s).mex = s.mex := by unfold regRecord; simp
@[simp] theorem regRecord_tier (master page off old new sel : Nat) (s : State) :
    (regRecord master page off old new sel s).tier = s.tier := by unfold regRecord; simp
@[simp] theorem regRecord_flash (master page off old new sel : Nat) (s : State) :
    (regRecord master page off old new sel s).flash = s.flash := by unfold regRecord; simp
@[simp] theorem regRecord_pft (master page off old new sel : Nat) (s : State) :
    (regRecord master page off old new sel s).pft = s.pft := by unfold regRecord; simp
@[simp] theorem regRecord_tc (master page off old new sel : Nat) (s : State) :
    (regRecord master page off old new sel s).tc = s.tc := by unfold regRecord; simp
@[simp] theorem regRecord_sec (master page off old new sel : Nat) (s : State) :
    (regRecord master page off old new sel s).sec = s.sec := by unfold regRecord; simp
@[simp] theorem regRecord_res (master page off old new sel : Nat) (s : State) :
    (regRecord master page off old new sel s).res = s.res := by unfold regRecord; simp
@[simp] theorem regRecord_cmp (master page off old new sel : Nat) (s : State) :
    (regRecord master page off old new sel s).cmp = s.cmp := by unfold regRecord; simp
@[simp] theorem regRecord_pwr (master page off old new sel : Nat) (s : State) :
    (regRecord master page off old new sel s).pwr = s.pwr := by unfold regRecord; simp
@[simp] theorem regRecord_boot (master page off old new sel : Nat) (s : State) :
    (regRecord master page off old new sel s).boot = s.boot := by unfold regRecord; simp

end Sys2Proof.Machine
end

