-- ==== Sys2Proof/Laws/Registers.lean ====
section
/-! SUPPORT. Laws of the register file: what a register reads after a write to it or to another one, and what a write that
passes every check does. -/
namespace Sys2Proof.Machine
open Sys2Proof

theorem State.setReg_regs (s : State) (page off v win : Nat) :
    (s.setReg page off v win).regs
      = Map.put s.regs (regKey page off win) (BitVec.ofNat 32 v) (BitVec.ofNat 32 (regReset page off win)) := rfl

/-- A register reads as the value set, as 32 bits. -/
theorem State.reg_setReg_same (s : State) (page off v win : Nat) :
    (s.setReg page off v win).reg page off win = v % 2 ^ 32 := by
  unfold State.reg
  rw [State.setReg_regs]
  by_cases h : BitVec.ofNat 32 v = BitVec.ofNat 32 (regReset page off win)
  · have h2 := congrArg BitVec.toNat h
    simp only [Map.put, if_pos h, Map.find?_erase_same]
    simpa using h2.symm
  · simp [Map.put, if_neg h]

/-- A register with another key reads as before. -/
theorem State.reg_setReg_ne (s : State) (page off v win page' off' win' : Nat)
    (h : regKey page' off' win' ≠ regKey page off win) : (s.setReg page off v win).reg page' off' win' = s.reg page' off' win' := by
  unfold State.reg
  rw [State.setReg_regs, Map.find?_put_ne _ _ _ h]

/-- Two registers at different offsets have different keys. -/
theorem regKey_ne_off {page off win page' off' win' : Nat} (h : off < 0x1000) (h' : off' < 0x1000) (hne : off' ≠ off) :
    regKey page' off' win' ≠ regKey page off win := by
  intro e
  have := congrArg (· % 0x1000) e
  simp only [regKey_off _ _ _ h, regKey_off _ _ _ h'] at this
  exact hne this

/-- The interrupt summary changes INT_ARM and the message counter alone. -/
theorem evalInt_reg (s : State) (page off win : Nat) (h1 : regKey page off win ≠ regKey pgInt 0x044 0)
    (h2 : regKey page off win ≠ regKey pgInt 0x050 0) : (evalInt s).reg page off win = s.reg page off win := by
  unfold evalInt
  simp only
  repeat' split
  all_goals first
    | rfl
    | exact (State.reg_setReg_ne _ _ _ _ _ _ _ _ h2).trans (State.reg_setReg_ne _ _ _ _ _ _ _ _ h1)

/-- A register at an offset other than those of PG_CAUSE, INT_ARM and the message counter reads as before a cause. -/
theorem setCause_reg (p bit : Nat) (s : State) (page off win : Nat) (h0 : off < 0x1000) (h : off ≠ 0x010) (h1 : off ≠ 0x044)
    (h2 : off ≠ 0x050) : (setCause p bit s).reg page off win = s.reg page off win := by
  unfold setCause
  rw [evalInt_reg _ _ _ _ (regKey_ne_off (by decide) h0 h1) (regKey_ne_off (by decide) h0 h2),
    State.reg_setReg_ne _ _ _ _ _ _ _ _ (regKey_ne_off (by decide) h0 h)]

theorem State.reg_lt (s : State) (page off win : Nat) : s.reg page off win < 2 ^ 32 := by
  unfold State.reg
  split
  · exact BitVec.isLt _
  · exact Nat.mod_lt _ (by decide)

/-- A cause sets its bit. -/
theorem setCause_bit (p bit : Nat) (s : State) (h : bit < 32) : bitOf ((setCause p bit s).reg p 0x010) bit = true := by
  unfold setCause bitOf
  rw [evalInt_reg _ _ _ _ (regKey_ne_off (by decide) (by decide) (by decide)) (regKey_ne_off (by decide) (by decide) (by decide)),
    State.reg_setReg_same, Nat.testBit_mod_two_pow]
  simp [h]

/-- What a REGISTER record leaves: the change count and owner of its page, and the log. -/
theorem logRec_reg (master kind target offset old new : Nat) (s : State) (page off win : Nat) (h0 : off < 0x1000)
    (h : off ≠ 0x010) (h1 : off ≠ 0x044) (h2 : off ≠ 0x050) (h3 : off ≠ 0x058) :
    (logRec master kind target offset old new s).reg page off win = s.reg page off win := by
  have hb (u : State) : (bumpMeas u).reg page off win = u.reg page off win := by
    unfold bumpMeas
    rw [setCause_reg _ _ _ _ _ _ h0 h h1 h2, State.reg_setReg_ne _ _ _ _ _ _ _ _ (regKey_ne_off (by decide) h0 h3)]
  unfold logRec appendRec
  simp only
  split
  · rw [setCause_reg _ _ _ _ _ _ h0 h h1 h2, hb]; rfl
  · rw [hb]; rfl

/-- The log after a record: one more SEQ, and the record at the head of the ring. -/
theorem logRec_log (master kind target offset old new : Nat) (s : State) :
    (logRec master kind target offset old new s).log.seq = (s.log.seq + 1) % 2 ^ 64
    ∧ (logRec master kind target offset old new s).log.recs
      = ({ seq := (s.log.seq + 1) % 2 ^ 64, boot := s.boot.count, master, kind, target, time := s.time, offset, old, new,
           link := s.log.head.take 16 } :: s.log.recs).take logRing := by
  unfold logRec appendRec
  simp only
  split <;> simp only [setCause_log, bumpMeas, State.setReg_log] <;> split <;> (try split) <;> exact ⟨rfl, rfl⟩

/-- The address arithmetic of a write to one register of a page. -/
theorem writeAddr (page off : Nat) (h : off < 0x1000) (h4 : off % 4 = 0) :
    (page * 0x1000 + off) / 0x1000 = page ∧ (page * 0x1000 + off) % 0x1000 / 4 * 4 = off := by omega

/-- A write that passes every check crosses to the die of its page and is taken. -/
theorem writeReg_taken {s : State} {master page off : Nat} (value : Nat) (h : MayWrite s master page off)
    (ho : off < 0x1000) (h4 : off % 4 = 0) (hr : (regAt page off).isSome = true) :
    writeReg master (page * 0x1000 + off) value 0xF s = takeWrite master page off value (crossRegister page false s) := by
  obtain ⟨e1, e2⟩ := writeAddr page off ho h4
  have hup : ¬(s.phase ≠ .ready ∧ s.phase ≠ .recovery) := by
    rcases h.up with h | h <;> simp [h]
  have hp : ¬(isHost master = true ∧ masterPort master ≠ s.primary ∧ (!globalExempt master page off) = true) := by
    rintro ⟨a, b, c⟩
    rcases h.primary a with h | h
    · exact b h
    · simp [h] at c
  unfold writeReg
  simp only [e1, e2, if_neg hup, h.offered, if_neg hp, if_neg (Nat.not_lt.mpr h.right), h.ready]
  simp
  intro hn
  simp [hn] at hr

theorem writeTo_taken {s : State} {master page off : Nat} (value : W32) (h : MayWrite s master page off)
    (ho : off < 0x1000) (h4 : off % 4 = 0) (hr : (regAt page off).isSome = true) :
    writeTo master page off value s = takeWrite master page off value.toNat (crossRegister page false s) := writeReg_taken _ h ho h4 hr

end Sys2Proof.Machine
end

