-- ==== Sys2Proof/WellFormed.lean ====
section
/-! DEFINITION. Well-formed commands: every operand is one that the interface it comes over can carry. What a register, a block or
a packet holds is not restricted: a command that carries a wrong value is well formed and is answered as the spec says. -/
namespace Sys2Proof

/-! ## Operands -/

/-- A host port: 0 for port A, 1 for port B (R276). -/
def hostPortOk (p : Nat) : Bool := decide (p < 2)

/-- A function of a port: PF0, or one of 63 VFs (Table 12-1). -/
def fnOk (f : Nat) : Bool := decide (f < 64)

/-- A queue pair of a port (Table 12-6). -/
def qpOk (q : Nat) : Bool := decide (q < 4096)

/-- A connection index: 16 bits of a PFT header (Table 10-3). -/
def connOk (c : Nat) : Bool := decide (c < 65536)

/-- A node ID, 12 bits wide (Table 10-3). -/
def nodeOk (n : Nat) : Bool := decide (n < 4096)

/-- A register master (Table 13-6). -/
def masterOk (m : Nat) : Bool := decide (m < 1024)

/-- A page of BAR0 (R406). -/
def pageOk (p : Nat) : Bool := decide (p < 0x4000)

/-- A dword's BAR0 address. -/
def addrOk (a : Nat) : Bool := decide (a < 0x4000000 ∧ a % 4 = 0)

/-- An HQ page (R300). -/
def hqPageOk (p : Nat) : Bool := decide (0x010 ≤ p ∧ p < 0x020)

/-- A compute region, and a pod of one, spares included (Tables 1-1 and 14-2). -/
def regionOk (r : Nat) : Bool := decide (r < 16)
def podOk (p : Nat) : Bool := decide (p < 28)

/-- A lane of a pod, spares included (Tables 1-1 and 14-2). -/
def laneOk (l : Nat) : Bool := decide (l < 66)

/-- An Ethernet port (Table 10-1). -/
def ethPortOk (p : Nat) : Bool := decide (p < 8)

/-- A reset domain (Table 16-9). -/
def domainOk (d : Nat) : Bool := decide (d < 24)

/-- A command's source: a submission entry's fields, or a SEND's return address (Tables 10-3 and 12-2). -/
def Src.wf : Src → Bool
  | .host port fn qp cid addr len =>
    hostPortOk port && fnOk fn && qpOk qp && decide (cid < 65536 ∧ addr < 2 ^ 64 ∧ len < 2 ^ 32)
  | .pft conn msg rkey off => connOk conn && decide (msg < 2 ^ 32 ∧ rkey < 2 ^ 32 ∧ off < 2 ^ 64)
  | .own _ _ => true
  | .keeper => true

/-- Errors of a 288/256 word: each names one of its 36 symbols and the bits changed in it (R331). -/
def errsOk (errs : List (Nat × Nat)) : Bool := errs.all fun e => decide (e.1 < 36 ∧ e.2 < 256)

/-- A packet with its header (Table 10-3). -/
def Packet.wf (p : Packet) : Bool := ethPortOk p.port && p.hdr.length == 40

/-- A submission entry of 64 bytes (Table 12-2). -/
def sqeOk (b : Bytes) : Bool := b.length == 64

/-- A doorbell: one of the slots of BAR2, the reserved ones included, an offset in it (Table 12-6), and a 32-bit index. -/
def doorbellOk (master slot off value : Nat) : Bool :=
  decide (master < 0x80 ∧ slot < 8192 ∧ off < 0x100 ∧ off % 4 = 0 ∧ value < 2 ^ 32)

/-- Byte enables of one dword. -/
def enablesOk (be : Nat) : Bool := decide (be < 16)

/-- An IPv6 address of 16 bytes, and a MAC of 6. -/
def ip6Ok (b : Bytes) : Bool := b.length == 16
def macOk (b : Bytes) : Bool := b.length == 6

/-- What self-tests report at power-on: failed Keeper pairs, HBM stacks, lanes and pods. -/
def selfTestOk (keepers : Nat) (hbms lanes pods : List Nat) : Bool :=
  decide (keepers ≤ 3) && hbms.all (fun k => decide (k < 8)) && lanes.all (fun k => decide (k < 16 * 28 * 66))
    && pods.all fun k => decide (k < 16 * 28)

/-- A margin of Table 14-5, 16 bits wide. -/
def marginOk (kind index value : Nat) : Bool := decide (kind ≤ 4 ∧ index < 256 ∧ value < 65536)

/-! ## Commands -/

/-- A command whose operands its interface can carry. -/
def Instr.wf : Instr → Bool
  | .query src _ | .append src _ | .appendMask src _ | .seal src _ | .merge src _ | .abort src _ | .lookupDescriptors src _
  | .lookupSearch src _ | .lookupAttach src _ | .insertDirectoryEntry src _ | .insertClass src _ | .insertRule src _
  | .replaceRule src _ | .deleteConversation src _ | .deleteMaskObject src _ | .deleteDirectoryEntry src _ | .deleteRule src _
  | .deleteProfile src _ | .lendGrantRequest src _ | .lendPlacement src _ | .lendGrantReturn src _ | .fetch src _ | .reclaim src _
  | .setPartner src _ | .mirrorStatus src _ | .promote src _ | .mirrorRelease src _ | .role src _ | .claim src _ => src.wf
  | .profileLoad src _ _ => src.wf
  | .pftSend src sqe _ | .pftWrite src sqe _ => src.wf && sqeOk sqe
  | .reg src sqe | .dereg src sqe => src.wf && sqeOk sqe
  | .appendComplete _ | .sealSequence _ _ | .tailRelease _ | .sketchScan _ | .pageDispatch _ _ | .deadlineExpiry _
  | .contributionIssue _ _ | .contributionResult _ _ | .ruleShiftDone | .profileActivate | .versionDrained _
  | .reclaimGraceExpiry _ | .handoverAnswer _ | .handoverCommit _ | .handoverTimeout _ _ | .mirrorBatchClose _ _
  | .mirrorResync _ _ | .mirrorRetry _ _ | .stubExpiry _ | .roleGraceExpiry | .roleChangeFinish => true
  | .sketchLoad region => regionOk region
  | .gatherRelease region _ => regionOk region
  | .regionPartial _ region => regionOk region
  | .residueMismatch region pod lane => regionOk region && podOk pod && laneOk lane
  | .laneSelfTestDone region pod lane _ => regionOk region && podOk pod && laneOk lane
  | .unitFault region pod | .podFault region pod => regionOk region && podOk pod
  | .podSelfTestDone region pod _ => regionOk region && podOk pod
  | .workUnitComplete region pod _ _ => regionOk region && podOk pod
  | .reclaimNotice lender _ grace => nodeOk lender && decide (grace ≤ 1000)
  | .handoverFreeze peer _ => nodeOk peer
  | .sqTailDoorbell m slot off v | .cqHeadDoorbell m slot off v | .eqHeadDoorbell m slot off v => doorbellOk m slot off v
  | .srqTailDoorbell m slot off v _ => doorbellOk m slot off v
  | .sqFetch port qp sqe _ _ => hostPortOk port && qpOk qp && sqeOk sqe
  | .queueDisable master page _ | .heartbeat master page _ | .handover master page _ => masterOk master && hqPageOk page
  | .cqStall port qp | .coalesceTimerExpiry port qp => hostPortOk port && qpOk qp
  | .primaryLossCheck => true
  | .functionLevelReset port fn | .configurationRequest port fn => hostPortOk port && fnOk fn
  | .perstAssert port | .perstDeassert port | .hostLinkDown port => hostPortOk port
  | .hostLinkUp port speed width => hostPortOk port && decide (speed < 8 ∧ width < 32)
  | .registerWrite master addr _ be => masterOk master && addrOk addr && enablesOk be
  | .counterLoRead master addr => masterOk master && addrOk addr
  | .pgForce master page _ | .pgLock master page _ => masterOk master && pageOk page
  | .intArm master _ | .accRight master _ | .logMark master _ | .logSel master _ | .clkLowReset master _ | .partModeWrite master _
  | .gateCommit master _ | .mbxClaim master _ | .mbxRelease master _ | .mbxGo master _ | .pwrProfile master _ | .cmpEpoch master _
  | .cmpMctrl master _ | .rstPulse master _ => masterOk master
  | .quiesceWrite master _ _ => masterOk master
  | .partCreate master | .partResize master | .partDelete master | .partReserve master | .format master | .flashOffline master
  | .pftOpenConnection master | .pftCloseConnection master | .smErase master | .smProgram master | .smRead master => masterOk master
  | .rsvSet master region | .rsvClear master region => masterOk master && regionOk region
  | .intHoldoffExpiry | .accDigestReady | .ckptWriteDone _ | .formatComplete _ | .mbxClaimTimeout => true
  | .partFreed part => decide (part < 256)
  | .keeperConnect node | .peerSilent node => nodeOk node
  | .gateSwitch port | .gateEntryAdvance port | .egressSelect port => ethPortOk port
  | .getVersion | .getCapabilities | .negotiateAlgorithms | .getDigests | .getCertificate | .challenge | .getMeasurements
  | .keyExchange | .finish | .spdmHeartbeat | .keyUpdate | .endSession | .deliverKey | .keyStatus => true
  | .spdmHeartbeatTimeout _ => true
  | .smbusSelect data | .smbusWrite data => decide (data.length ≤ 32)
  | .smbusRead => true
  | .pftSendPacket p | .pftWritePacket p | .pftAck p | .connect p | .accept p | .close p | .event p | .beacon p => p.wf
  | .ackDelayExpiry conn | .retransmitTimeout conn => connOk conn
  | .beaconSend => true
  | .neighborSolicitation port ends => ethPortOk port && ip6Ok ends.dst && ip6Ok ends.src
  | .neighborAdvertisement port target mac => ethPortOk port && ip6Ok target && macOk mac
  | .echoRequest port ends _ => ethPortOk port && ip6Ok ends.dst && ip6Ok ends.src
  | .frameDiscard port _ _ => ethPortOk port
  | .laneFailure port lane => ethPortOk port && decide (lane < 16)
  | .linkDown port | .linkUp port => ethPortOk port
  | .ref156Lost | .ref156Return | .pressureEval | .journalCommit | .flushComplete | .pwrFailNFall | .sysRstNFall | .ref100Lost => true
  | .ageEvent _ | .migrationComplete _ | .migrationFail _ | .sourceCopyRelease _ | .eviction _ => true
  | .flashRead _ cw _ _ _ => decide (cw < 4)
  | .mapSegmentWriteback _ | .blockErase _ | .refresh _ => true
  | .garbageCollection c | .wearLevel c => decide (c.place < 16)
  | .zqCalibration target => decide (target < 128)
  | .coldMountComplete _ _ | .warmMountComplete _ => true
  | .powerOn keepers hbms failed board => selfTestOk keepers hbms failed.lanes failed.pods && decide (board.ces ≤ 8)
  | .pwrFailNRise keepers hbms lanes pods => selfTestOk keepers hbms lanes pods
  | .railFault rail => decide (rail < 8)
  | .pllLockLost pll | .pllRelock pll => decide (pll < 9)
  | .powerDecision dw => decide (dw < 65536)
  | .avsSettled | .avsFail | .meteringSample | .smDone => true
  | .temperatureSample _ _ hbms => decide (hbms.length ≤ 8)
  | .domainDrained d | .domainReady d => domainOk d
  | .patrolScrub _ _ _ words lies => words.all errsOk && decide (lies.slot < 256 ∧ lies.space < 16)
  | .hbmEccError stack channel row errs _ slot space =>
    errsOk errs && decide (stack < 8 ∧ channel < 32 ∧ row < 2 ^ 32 ∧ slot < 256 ∧ space < 16)
  | .tagFail _ _ space _ _ => decide (space < 16)
  | .aesKnownAnswerTest region _ _ => regionOk region
  | .sramUncorr place errs => errsOk errs && decide (place.kind ≤ 6)
  | .flitError network loc words => words.all errsOk && decide (network ≤ 3 ∧ loc < 16 ∧ (network = 0 ∨ loc < 4))
  | .d2dRepair die module => decide (die < 4 ∧ module < 4)
  | .keeperFault pair => decide (pair < 3)
  | .watchdog block region => decide (block < 5) && regionOk region
  | .margin kind index value => marginOk kind index value
  | .ethCtrlEnable master port _ => masterOk master && ethPortOk port
  | .jtagInstruction _ => true

end Sys2Proof
end

