-- ==== Sys2Proof/Tests/Slice0.lean ====
section
/-! SUPPORT. Small tests of the model: commands that the checks of WellFormed refuse, one state and operands that meet the
hypotheses of each statement (and of each of its clauses), and single steps whose expected results stand in the spec. -/
set_option maxRecDepth 100000
namespace Sys2Proof.Tests
open Sys2Proof Sys2Proof.Machine

/-! ## Ill-formed commands are refused, one for each check, and one at each boundary is not -/

def hostSrc : Src := .host 0 0 0 5 0 64
def pftSrc : Src := .pft 0 0 0x10001 0

theorem test_wf_hostPort : ((Instr.perstAssert 2).wf, (Instr.perstAssert 1).wf) = (false, true) := by decide
theorem test_wf_fn : ((Instr.functionLevelReset 0 64).wf, (Instr.functionLevelReset 1 63).wf) = (false, true) := by decide
theorem test_wf_qp : ((Instr.cqStall 0 4096).wf, (Instr.cqStall 0 4095).wf) = (false, true) := by decide
theorem test_wf_conn : ((Instr.ackDelayExpiry 65536).wf, (Instr.ackDelayExpiry 65535).wf) = (false, true) := by decide
theorem test_wf_node : ((Instr.keeperConnect 4096).wf, (Instr.keeperConnect 4095).wf) = (false, true) := by decide
theorem test_wf_master : ((Instr.intArm 1024 0).wf, (Instr.intArm 1023 0).wf) = (false, true) := by decide
theorem test_wf_page : ((Instr.pgLock 0 0x4000 1).wf, (Instr.pgLock 0 0x3FFF 1).wf) = (false, true) := by decide
theorem test_wf_addr : ((Instr.counterLoRead 0 0x1002).wf, (Instr.counterLoRead 0 0x4000000).wf, (Instr.counterLoRead 0 0x3FFFFFC).wf)
    = (false, false, true) := by decide
theorem test_wf_hqPage : ((Instr.handover 0 0x020 4).wf, (Instr.handover 0 0x00F 4).wf, (Instr.handover 0 0x01F 4).wf)
    = (false, false, true) := by decide
theorem test_wf_region : ((Instr.sketchLoad 16).wf, (Instr.sketchLoad 15).wf) = (false, true) := by decide
theorem test_wf_pod : ((Instr.podFault 0 28).wf, (Instr.podFault 15 27).wf) = (false, true) := by decide
theorem test_wf_lane : ((Instr.residueMismatch 0 0 66).wf, (Instr.residueMismatch 0 0 65).wf) = (false, true) := by decide
theorem test_wf_ethPort : ((Instr.linkUp 8).wf, (Instr.linkUp 7).wf) = (false, true) := by decide
theorem test_wf_domain : ((Instr.domainReady 24).wf, (Instr.domainReady 23).wf) = (false, true) := by decide
theorem test_wf_src : ((Instr.query (.host 0 0 0 65536 0 64) []).wf, (Instr.query (.pft 0 0 0x100000000 0) []).wf, (Instr.query hostSrc []).wf)
    = (false, false, true) := by decide
theorem test_wf_packet : ((Instr.beacon ⟨0, [], zeros 39, []⟩).wf, (Instr.beacon ⟨8, [], zeros 40, []⟩).wf,
    (Instr.beacon ⟨7, [], zeros 40, []⟩).wf) = (false, false, true) := by decide
theorem test_wf_sqe : ((Instr.reg hostSrc (zeros 63)).wf, (Instr.reg hostSrc (zeros 64)).wf) = (false, true) := by decide
theorem test_wf_doorbell : ((Instr.sqTailDoorbell 0 8192 0 1).wf, (Instr.sqTailDoorbell 0x80 0 0 1).wf, (Instr.sqTailDoorbell 0 0 2 1).wf,
    (Instr.sqTailDoorbell 0x7F 8191 0xFC 1).wf) = (false, false, false, true) := by decide
theorem test_wf_enables : ((Instr.registerWrite 0 0x40 0 16).wf, (Instr.registerWrite 0 0x40 0 15).wf) = (false, true) := by decide
theorem test_wf_ip6 : ((Instr.neighborSolicitation 0 ⟨zeros 15, zeros 16⟩).wf, (Instr.neighborSolicitation 0 ⟨zeros 16, zeros 15⟩).wf,
    (Instr.neighborSolicitation 0 ⟨zeros 16, zeros 16⟩).wf) = (false, false, true) := by decide
theorem test_wf_mac : ((Instr.neighborAdvertisement 0 (zeros 16) (zeros 5)).wf, (Instr.neighborAdvertisement 0 (zeros 16) (zeros 6)).wf)
    = (false, true) := by decide
theorem test_wf_selfTest : ((Instr.powerOn 4 [] ⟨[], []⟩ ⟨1, []⟩).wf, (Instr.powerOn 0 [8] ⟨[], []⟩ ⟨1, []⟩).wf, (Instr.powerOn 0 [] ⟨[29568], []⟩ ⟨1, []⟩).wf,
    (Instr.powerOn 0 [] ⟨[], [448]⟩ ⟨1, []⟩).wf, (Instr.powerOn 0 [] ⟨[], []⟩ ⟨9, []⟩).wf, (Instr.powerOn 3 [7] ⟨[29567], [447]⟩ ⟨8, []⟩).wf)
    = (false, false, false, false, false, true) := by decide
theorem test_wf_errs : ((Instr.sramUncorr ⟨0, 0⟩ [(36, 1)]).wf, (Instr.sramUncorr ⟨0, 0⟩ [(0, 256)]).wf, (Instr.sramUncorr ⟨7, 0⟩ []).wf,
    (Instr.sramUncorr ⟨6, 0⟩ [(35, 255)]).wf) = (false, false, false, true) := by decide
theorem test_wf_flash : ((Instr.flashRead 0 4 0 [] false).wf, (Instr.flashRead 0 3 0 [] false).wf, (Instr.wearLevel ⟨16, []⟩).wf,
    (Instr.wearLevel ⟨15, []⟩).wf) = (false, true, false, true) := by decide
theorem test_wf_pll : ((Instr.pllRelock 9).wf, (Instr.pllRelock 8).wf, (Instr.railFault 8).wf, (Instr.railFault 7).wf)
    = (false, true, false, true) := by decide
theorem test_wf_margin : ((Instr.margin 5 0 0).wf, (Instr.margin 0 256 0).wf, (Instr.margin 4 255 65535).wf) = (false, false, true) := by decide

/-- The table gives no row any bits, so no word spells a command. -/
theorem test_no_word_decodes : decodeTableWord 32 0xFFFFFFFF = none := by decide

/-! ## States to start from -/

/-- The state after reset, in service. -/
def rdy : State := { State.reset with phase := .ready }

theorem mayWrite_of {s : State} {m p o : Nat} (h : (s.phase = .ready ∨ s.phase = .recovery) ∧ s.offered p = true
    ∧ (isHost m = true → masterPort m = s.primary ∨ globalExempt m p o = true) ∧ writeNeeds p ≤ s.right m p ∧ s.pageReady p = true) :
    MayWrite s m p o := ⟨h.1, h.2.1, h.2.2.1, h.2.2.2.1, h.2.2.2.2⟩

theorem takes_of {s : State} {op : Nat} (h : s.phase = .ready ∧ s.commandWaits op = false) : Takes s op := ⟨h.1, h.2⟩

/-- What an outcome's next state satisfies. -/
def after (o : Host.Outcome State Fault Refusal) (f : State → Bool) : Bool :=
  match o with
  | .next t => f t
  | _ => false

/-! ## Registers, rights and the log: the hypotheses of the statements are met -/

/-- Region 15 with slot 1 of its frame held by partition 1, at the end of slot 0, with accesses of partitions 1 and 2 waiting or of 2 alone. -/
def arbS (waiting : Map Nat) : State :=
  rdy.updRegion 15 fun r => { r with rsv := [(1, ⟨0, 1, 1, 0⟩)], arb := { r.arb with frame := 2, slotNs := 1, cur := 0, waiting } }

theorem test_hyp_StepTakesFront : rdy.pending = [] ∧ State.reset.phase ≠ .ready ∧ ∀ w ∈ [[(1, 5), (2, 3)], [(2, 3)]],
    let s := arbS w
    let a := (s.region 15).arb
    s.phase = .ready ∧ (s.region 15).retired = false ∧ a.since + a.slotNs ≤ s.time + 1
      ∧ (s.region 15).holder (if a.cur + 1 < a.frame then a.cur + 1 else 0) = some 1 ∧ Map.has a.waiting 1 = (w.length == 2) := by decide

theorem test_hyp_ExecKeepsQueueAndFuses : after (exec .intHoldoffExpiry rdy) (fun t => t.pending == []) = true := by decide

theorem test_hyp_StepKeepsCanonical : Canonical rdy ∧ Steps rdy { rdy with time := 1 } := by
  constructor
  · show Memory.wf _ = true; decide
  · rfl

theorem test_hyp_EveryCommandCompletes : ∀ b, Instr.jtagInstruction true = .jtagInstruction b → b = true ∨ rdy.fuses.debugOpen = false :=
  fun b h => .inl (by injection h with h; exact h.symm)

/-- An ordinary register at the lowest value its rule allows. -/
theorem test_hyp_RegisterWriteStored :
    let s := rdy
    let new := (s.reg pgPft 0x04C &&& (0xFFFFFFFF ^^^ s.writable pgPft 0x04C)) ||| Machine.adjust pgPft 0x04C (64 &&& s.writable pgPft 0x04C)
    MayWrite s 0 pgPft 0x04C ∧ (regAt pgPft 0x04C).isSome = true ∧ ordinary pgPft 0x04C = true ∧ perMaster pgPft 0x04C = false
      ∧ isCounter pgPft 0x04C = false ∧ new < 2 ^ 32 ∧ new ≠ s.reg pgPft 0x04C ∧ s.inRange pgPft 0x04C 0 new = true :=
  ⟨mayWrite_of (by decide), by decide⟩

/-- A partial-byte write; a function of the other port; a master without the right; a page with no port behind it. -/
theorem test_hyp_RegisterWriteTurnedAway :
    (rdy.phase = .ready ∧ (0 : Nat) ≠ 0xF ∧ (14 : Nat) ≠ 0xF)
      ∧ (rdy.offered pgTier = true ∧ isHost 0x040 = true ∧ masterPort 0x040 ≠ rdy.primary ∧ globalExempt 0x040 pgTier 0x040 = false)
      ∧ (rdy.offered pgTier = true ∧ isHost 0x001 = true ∧ masterPort 0x001 = rdy.primary ∧ rdy.right 0x001 pgTier < writeNeeds pgTier)
      ∧ (rdy.offered (pgEth 7) = true ∧ masterPort 0 = rdy.primary ∧ writeNeeds (pgEth 7) ≤ rdy.right 0 (pgEth 7)
          ∧ rdy.pageReady (pgEth 7) = false) := by decide

theorem test_hyp_CounterReadLatches :
    rdy.phase = .ready ∧ rdy.offered pgFlm = true ∧ 1 ≤ rdy.right 0 pgFlm ∧ rdy.pageReady pgFlm = true ∧ hiOf pgFlm 0x088 = some 0x08C
      ∧ ownPage 0 pgFlm 0x088 = pgFlm ∧ (regAt pgFlm 0x088).isSome = true ∧ perMaster pgFlm 0x088 = false := by decide

/-- In service, with injections enabled. -/
def injS : State := rdy.setReg pgGlb 0x04C 1

/-- In service, with the summary enabled and armed, and a message pending at the end of the holdoff of 1 µs. -/
def intS : State :=
  { ((rdy.setReg pgInt 0x040 (0x10040 + 3)).setReg pgInt 0x044 1).setReg pgGlb 0x010 1 with msgPending := true, lastMsg := some 0, time := 1000 }

theorem test_hyp_HeadersAndInterrupts :
    (MayWrite rdy 0 pgGlb 0x01C ∧ (regAt pgGlb 0x01C).isSome = true ∧ bitOf (1 : W32).toNat 0 = true)
      ∧ (MayWrite injS 0 pgSec 0x018 ∧ (regAt pgSec 0x018).isSome = true ∧ 3 ≤ injS.right 0 pgSec ∧ injS.field pgGlb 0x04C 0 1 ≠ 0
          ∧ forceListed pgSec (bitsOf (2 : W32).toNat 0 8) = true ∧ Map.has injS.res.armed pgSec = false)
      ∧ (MayWrite rdy 0 pgClk 0x040 ∧ bitOf (0x10000 : W32).toNat 16 = true)
      ∧ (MayWrite rdy 0 pgInt 0x044 ∧ bitOf (1 : W32).toNat 0 = true)
      ∧ (intS.phase = .ready ∧ intS.msgPending = true ∧ intS.field pgInt 0x044 0 1 = 1 ∧ bitOf (intS.reg pgInt 0x040) 6 = true
          ∧ intS.summaryPages ≠ [] ∧ ∀ x, intS.lastMsg = some x → x + bitsOf (intS.reg pgInt 0x040) 16 8 * 1000 ≤ intS.time) :=
  ⟨⟨mayWrite_of (by decide), by decide⟩, ⟨mayWrite_of (by decide), by decide⟩, ⟨mayWrite_of (by decide), by decide⟩,
    ⟨mayWrite_of (by decide), by decide⟩, by decide, by decide, by decide, by decide, by decide, fun x h => by cases h; decide⟩

theorem test_hyp_AccessChanges_rights : ∀ k, rdy.right k 5 < 4 := by
  intro k
  show resetRight k 5 < 4
  unfold resetRight
  repeat' split
  all_goals omega

theorem test_hyp_AccessChanges :
    MayWrite rdy 0 pgAcc 0x048 ∧ rdy.phase = .ready ∧ ({ rdy with log := { rdy.log with digestDue := true } } : State).log.digestDue = true
      ∧ 1 ≤ rdy.right 0 pgAcc ∧ rdy.pageReady pgAcc = true ∧ rdy.offered pgAcc = true :=
  ⟨mayWrite_of (by decide), by decide⟩

/-- A checkpoint of SEQ 4 being written. -/
def ckptS : State := { rdy with log := { rdy.log with ckpt := some (4, zeros 32) } }

theorem test_hyp_ChangeLogWorks :
    MayWrite rdy 0 pgLog 0x06C ∧ MayWrite rdy 0 pgLog 0x050 := ⟨mayWrite_of (by decide), mayWrite_of (by decide)⟩

theorem test_hyp_SerialMemoryWindow_checkpoint : ckptS.phase = .ready ∧ ckptS.log.ckpt = some (4, zeros 32) := by decide

/-! ## The security processor: the hypotheses of the statements are met -/

/-- In service, with a message of these bytes in the mailbox of owner 0, and its exchange running or not. -/
def mailS (m : Bytes) (busy : Bool) : State :=
  let s := putMail m rdy
  { s with sec := { s.sec with owner := some 0, busy, len := m.length, version := true, caps := true, algs := true } }

/-- An SPDM request outside any session. -/
def plain (m : Bytes) : State := mailS (zeros 4 ++ m) true

theorem asks_of {s : State} {x : Option Nat} {m : Bytes} {c : Nat} (h : s.phase = .ready ∧ s.quiet 23 = false ∧ s.sec.busy = true)
    (g : s.mail = .ok (x, m)) (k : byteAt m 1 = c) : MailAsks s x m c := ⟨h.1, h.2.1, h.2.2, g, k⟩

/-- A claimed mailbox whose owner has been silent for 100 ms. -/
def silentS : State := { rdy with time := 100000000, sec := { rdy.sec with owner := some 0, lastWrite := 0 } }

theorem test_hyp_MailboxOpensAndCloses :
    (MayWrite rdy 0 pgSec 0x044 ∧ rdy.sec.owner = none) ∧ (MayWrite silentS 0 pgSec 0x044 ∧ silentS.sec.owner.isSome = true)
      ∧ (silentS.sec.owner = some 0 ∧ silentS.sec.busy = false) ∧ silentS.sec.owner ≠ some 1
      ∧ (let s := mailS (zeros 4 ++ [0x10, 0x84, 0, 0]) false
         MayWrite s 0 pgSec 0x044 ∧ s.sec.owner = some 0 ∧ s.sec.busy = false
           ∧ earlyError { s with sec := { s.sec with len := 8, busy := true, resp := false, lastWrite := s.time } } = none)
      ∧ (silentS.phase = .ready ∧ silentS.sec.lastWrite + 100000000 ≤ silentS.time) :=
  ⟨⟨mayWrite_of (by decide), by decide⟩, ⟨mayWrite_of (by decide), by decide⟩, by decide, by decide, ⟨mayWrite_of (by decide), by decide⟩,
    by decide⟩

def ask (code p1 p2 : Nat) (rest : Bytes) : Bytes := [if code = 0x84 then 0x10 else 0x12, BitVec.ofNat 8 code, BitVec.ofNat 8 p1, BitVec.ofNat 8 p2] ++ rest

theorem test_hyp_SpdmAnswers :
    MailAsks (plain (ask 0x84 0 0 [])) none (ask 0x84 0 0 []) 0x84
      ∧ (MailAsks (plain (ask 0xE1 0 0 [])) none (ask 0xE1 0 0 []) 0xE1 ∧ (plain (ask 0xE1 0 0 [])).sec.version = true)
      ∧ (MailAsks (plain (ask 0xE3 0 0 [])) none (ask 0xE3 0 0 []) 0xE3 ∧ (plain (ask 0xE3 0 0 [])).sec.caps = true)
      ∧ ((plain (ask 0x81 0 0 [])).sec.algs = true ∧ MailAsks (plain (ask 0x81 0 0 [])) none (ask 0x81 0 0 []) 0x81)
      ∧ (MailAsks (plain (ask 0x82 0 0 [0, 0, 0, 4])) none (ask 0x82 0 0 [0, 0, 0, 4]) 0x82 ∧ byteAt (ask 0x82 0 0 [0, 0, 0, 4]) 2 % 16 = 0
          ∧ leAt (ask 0x82 0 0 [0, 0, 0, 4]) 4 2 ≤ Config.certChain.length)
      ∧ (MailAsks (plain (ask 0x83 0 0 [])) none (ask 0x83 0 0 []) 0x83 ∧ byteAt (ask 0x83 0 0 []) 2 = 0)
      ∧ (MailAsks (plain (ask 0xE0 0 0 [])) none (ask 0xE0 0 0 []) 0xE0 ∧ byteAt (ask 0xE0 0 0 []) 3 = 0) :=
  ⟨asks_of (by decide) rfl (by decide), ⟨asks_of (by decide) rfl (by decide), by decide⟩, ⟨asks_of (by decide) rfl (by decide), by decide⟩,
    ⟨by decide, asks_of (by decide) rfl (by decide)⟩, ⟨asks_of (by decide) rfl (by decide), by decide, Nat.zero_le _⟩,
    ⟨asks_of (by decide) rfl (by decide), by decide⟩, ⟨asks_of (by decide) rfl (by decide), by decide⟩⟩

/-- A measurement block that exists. -/
theorem test_hyp_SpdmMeasures_block : rdy.measBlocks [2] ≠ [] := by decide

/-- In service with session 7, established or not, and a message of that session in the mailbox. -/
def inSession (done : Bool) : State :=
  let s := mailS ([1, 0, 0, 0] ++ toLE 4 7) true
  { s with sec := { s.sec with sessions := [(7, { keys := [1], established := done, seqNo := 0, lastHb := 0 })] } }

/-- What the session's cipher opens is the message that is asked, for every value of that free function that opens it. -/
theorem asks_session (done : Bool) (m : Bytes) (h : Config.aeadOpen [1] 0 (toLE 4 7) = some m) :
    MailAsks (inSession done) (some 7) m (byteAt m 1) := by
  refine asks_of (by cases done <;> decide) ?_ rfl
  have e : (inSession done).mail = (match Config.aeadOpen [1] 0 (toLE 4 7) with
      | some m => .ok (some 7, m) | none => .error 0x06) := by cases done <;> rfl
  rw [e, h]

theorem test_hyp_SpdmSessions :
    (MailAsks (plain (ask 0xE4 0 0 [])) none (ask 0xE4 0 0 []) 0xE4 ∧ byteAt (ask 0xE4 0 0 []) 3 = 0 ∧ (plain []).sec.sessions.length < 16)
      ∧ (∀ x, Map.find? (inSession false).sec.sessions 7 = some x → x.established = false)
      ∧ (∀ x, Map.find? (inSession true).sec.sessions 7 = some x → x.established = true)
      ∧ (∀ m, Config.aeadOpen [1] 0 (toLE 4 7) = some m → ∀ done, MailAsks (inSession done) (some 7) m (byteAt m 1))
      ∧ (let m := [0x12, 0xE5, 0, 0] ++ Config.spdmVerifyData [1] ((inSession false).sec.transcript ++ [0x12, 0xE5, 0, 0])
         bitOf (byteAt m 2) 0 = false
           ∧ slice m 4 32 = slice (Config.spdmVerifyData [1] ((inSession false).sec.transcript ++ slice m 0 4)) 0 32)
      ∧ ((inSession true).phase = .ready ∧ 0 + 2 * 10000000000 ≤ ({ inSession true with time := 20000000000 } : State).time) :=
  ⟨⟨asks_of (by decide) rfl (by decide), by decide⟩, fun x h => by cases h; rfl, fun x h => by cases h; rfl,
    fun m h d => asks_session d m h, ⟨rfl, rfl⟩, by decide⟩

/-- A key for partition 0, of tenant 0x001, in a vendor-defined request. -/
def keyMsg (op : Nat) : Bytes := ask 0xFE 0 0 ([3, 0, 2, 0x82, 0x1F] ++ toLE 2 40 ++ [BitVec.ofNat 8 op, 0, 1, 0, 0, 0, 0, 0] ++ zeros 32)

/-- The state of a session that may deliver that key. -/
def keyS : State := { inSession true with parts := [(0, Partition.created 1 16)] }

theorem test_hyp_KeysDelivered :
    (vendorPayload (keyMsg 1) = some (slice (keyMsg 1) 11 40) ∧ byteAt (slice (keyMsg 1) 11 40) 0 = 1
        ∧ keyS.keyResult (some 7) (slice (keyMsg 1) 11 40) = 0)
      ∧ (Config.aeadOpen [1] 0 (toLE 4 7) = some (keyMsg 1) → MailAsks keyS (some 7) (keyMsg 1) 0xFE)
      ∧ (MailAsks (plain (keyMsg 1)) none (keyMsg 1) 0xFE ∧ (plain (keyMsg 1)).keyResult none (slice (keyMsg 1) 11 40) ≠ 0)
      ∧ (MailAsks (plain (keyMsg 2)) none (keyMsg 2) 0xFE ∧ byteAt (slice (keyMsg 2) 11 40) 0 = 2) := by
  refine ⟨by decide, fun h => asks_of (by decide) ?_ (by decide), ⟨asks_of (by decide) rfl (by decide), by decide⟩,
    asks_of (by decide) rfl (by decide), by decide⟩
  have e : keyS.mail = (match Config.aeadOpen [1] 0 (toLE 4 7) with
      | some m => .ok (some 7, m) | none => .error 0x06) := rfl
  rw [e, h]

/-- A key outside a session is turned away. -/
theorem test_hyp_KeyOnlyInSession :
    (plain (keyMsg 1)).mail = .ok (none, keyMsg 1) ∧ after (exec .deliverKey (plain (keyMsg 1))) (fun t => t.sec.keys == []) = true :=
  ⟨rfl, by decide⟩

/-! ## Partitions, the serial memory and the reset domains: the hypotheses of the statements are met -/

/-- In service with a plain partition 0, a STRICT partition 1 and a partition 3 being deleted, and the GLB command arguments set. -/
def partS (tenant units entries sel : Nat) : State :=
  let s := { rdy with parts := [(0, Partition.created 0 5), (1, { Partition.created 7 3 with strict := true, rsv := 4 }),
                                (3, { Partition.created 9 3 with state := .deleting })] }
  ((s.setReg pgGlb 0x080 (tenant + 65536 * units)).setReg pgGlb 0x084 entries).setSel 0 pgGlb 0x060 sel

/-- CREATE of all that is free, RESIZE, DELETE, and RESERVE of all that may be reserved. -/
theorem test_hyp_PartitionsChange :
    (let s := partS 20 (partS 0 0 0 0).freeUnits 0 0
     MayWrite s 0 pgGlb 0x088 ∧ 1 ≤ s.argUnits ∧ s.tenantPart s.argTenant = none ∧ s.freePart = some 2 ∧ s.argUnits ≤ s.freeUnits)
      ∧ (let s := partS 0 1 0 0
         ∃ p, s.part? (s.selPart 0) = some p ∧ p.state = .active ∧ 1 ≤ s.argUnits ∧ s.argUnits - p.units ≤ s.freeUnits
           ∧ ∀ r, r < 16 → s.partBlocks (s.selPart 0) r ≤ shareBlocks s.argUnits)
      ∧ (let s := partS 0 1 12288 1
         ∃ p, s.part? (s.selPart 0) = some p ∧ p.state = .active ∧ p.strict = true ∧ s.strictRsv - p.rsv + s.argEntries ≤ 12288)
      ∧ (partS 20 0 0 0).argUnits = 0
      ∧ (1 ≤ (partS 7 1 0 0).argUnits ∧ ((partS 7 1 0 0).tenantPart (partS 7 1 0 0).argTenant).isSome = true)
      ∧ (let s := partS 20 1023 0 0
         1 ≤ s.argUnits ∧ s.tenantPart s.argTenant = none ∧ s.freeUnits < s.argUnits) :=
  ⟨⟨mayWrite_of (by decide), by decide⟩, ⟨_, rfl, by decide⟩, ⟨_, rfl, by decide⟩, by decide, by decide, by decide⟩

theorem test_hyp_PartitionModesAndReserves :
    (let s := partS 0 0 0 1
     MayWrite s 0 pgGlb 0x068 ∧ ∃ p, s.part? (s.selPart 0) = some p ∧ p.state = .active ∧ bitsOf (1 : W32).toNat 2 2 ≠ 3
       ∧ (1 : W32).toNat % 512 ≠ p.mode ∧ p.strict = true ∧ bitOf (1 : W32).toNat 1 = false)
      ∧ (let s := partS 0 0 0 0
         s.phase = .ready ∧ (∃ p, s.part? 3 = some p ∧ p.state = .deleting) ∧ s.partQuiet 3 = true ∧ s.partConnected 3 = false)
      ∧ (∀ st ∈ [CState.opened, .connecting], let c := newConn st false 5 (zeros 16) 3 9 1 5 100 0
         let s := { partS 0 0 0 0 with pft := { rdy.pft with conns := [(7, c)] } }
         s.partQuiet 3 = true ∧ c.keeper = false ∧ c.part = 3 ∧ c.state = st ∧ c.pkts = [] ∧ c.waitq = [])
      ∧ (let s := (partS 0 0 0 0).setSel 0 (pgRegn 15) 0x050 1
         MayWrite s 0 (pgRegn 15) 0x06C ∧ (crossRegister (pgRegn 15) false s).rsvCheck 15 1 false ⟨0, 0, 0, 0⟩ = true)
      ∧ (let s := crossRegister (pgRegn 15) false (((partS 0 0 0 0).setSel 0 (pgRegn 15) 0x050 1).setReg (pgRegn 15) 0x060 0x2000000)
         s.rsvCheck 15 1 true { pods := s.field (pgRegn 15) 0x060 0 28, first := bitsOf (s.reg (pgRegn 15) 0x064) 0 9,
                                count := bitsOf (s.reg (pgRegn 15) 0x064) 16 9, gather := s.field (pgRegn 15) 0x068 0 10 } = true) :=
  ⟨⟨mayWrite_of (by decide), _, rfl, by decide⟩, ⟨by decide, ⟨_, rfl, by decide⟩, by decide⟩, by decide, ⟨mayWrite_of (by decide), by decide⟩, by decide⟩

/-- In service with a window operation running. -/
def smS (op a : Nat) : State := { rdy with boot := { rdy.boot with smOp := some (op, a, 0), bootedSlot := 1 } }

theorem test_hyp_SerialMemoryWindow :
    (let s := { rdy with boot := { rdy.boot with bootedSlot := 1 } }
     MayWrite s 0 pgRst 0x064 ∧ 3 ≤ s.right 0 pgRst ∧ s.boot.smOp = none ∧ s.smGuarded (s.field pgRst 0x060 0 26) = false
       ∧ s.field pgRst 0x060 0 26 % 256 = 0)
      ∧ (smS 1 0).phase = .ready ∧ (smS 1 0).boot.smOp = some (1, 0, 0) ∧ (smS 3 0).boot.smOp = some (3, 0, 0) :=
  ⟨⟨mayWrite_of (by decide), by decide⟩, by decide⟩

/-- In service with these quiesce bits set. -/
def quietS (bits : Nat) : State := (rdy.setReg pgRst 0x048 bits).setReg pgRst 0x04C bits

theorem test_hyp_DomainsReset :
    (MayWrite rdy 0 pgRst 0x04C ∧ rdy.reg pgRst 0x04C ≠ (0x800001 : W32).toNat % 2 ^ 24)
      ∧ (∀ d, d = 0 ∨ d = 20 ∨ d = 23 → bitOf ((quietS 0x900001).reg pgRst 0x048) d = true ∧ bitOf ((quietS 0x900001).reg pgRst 0x04C) d = true
          ∧ bitOf ((quietS 0x900001).reg pgRst 0x050) d = false ∧ (quietS 0x900001).mex.changes = [])
      ∧ (({ rdy with boot := { rdy.boot with resetting := [23] } } : State).boot.resetting.contains 23 = true)
      ∧ (MayWrite rdy 0 pgRst 0x054 ∧ (0x800001 : W32).toNat % 2 ^ 24 ≠ 0) :=
  ⟨⟨mayWrite_of (by decide), by decide⟩, by rintro d (rfl | rfl | rfl) <;> decide, by decide, ⟨mayWrite_of (by decide), by decide⟩⟩

/-! ## Queues and host ports: the hypotheses of the statements are met -/

/-- In service with queue pair `qp` of port A in this state, of 16 entries, enabled with interrupts. -/
def queueS (qp : Nat) (q : Queue) : State :=
  let s := { rdy with parts := [(0, Partition.created 0 5)] }
  ((s.setReg (pgHq 0 0) 0x074 0xC00404 qp).setReg (pgHq 0 0) 0x07C 0x101 qp).setQueue 0 qp q

def cqe0 : Cqe := { tag := 0, status := 0, trunc := false, kind := 0, cid := 0, bytes := 0, aux := 0 }
def qTail : Queue := { Queue.empty with sqTail := 1, cqTail := 15 }
def qHeld : Queue := { qTail with held := [cqe0], inflight := [5], unsignalled := 1 }

/-- The last queue pair; the last SQ index; CQ heads up to the tail, with and without held completions; event queues that have lost records
or none; the last partition's SRQ. -/
theorem test_hyp_DoorbellsRing :
    (let s := queueS 4095 qTail
     s.phase = .ready ∧ s.ownsQueue 0 0 4095 = true ∧ s.qEnabled 0 4095 = true ∧ 15 < s.sqSize 0 4095 ∧ 15 < s.cqSize 0 4095
       ∧ (s.queue 0 4095).cqHead < 16 ∧ (s.queue 0 4095).cqTail < 16 ∧ ringDist 16 0 15 ≤ ringDist 16 0 (s.queue 0 4095).cqTail
       ∧ (s.queue 0 4095).disabling = false ∧ (s.queue 0 4095).held = [])
      ∧ (let s := queueS 0 qHeld
         s.ownsQueue 0 0 0 = true ∧ s.qEnabled 0 0 = true ∧ (s.queue 0 0).held = [cqe0] ∧ 15 ≠ (s.queue 0 0).cqHead
           ∧ ringDist (s.cqSize 0 0) 0 15 ≤ ringDist (s.cqSize 0 0) 0 (s.queue 0 0).cqTail)
      ∧ (∀ lost fn, (lost = 0 ∨ lost = 3) → (fn = 0 ∨ fn = 63) →
          let s := (rdy.setReg (pgHq 0 0) 0x090 0x10004 fn).setEq 0 fn { head := 0, tail := 15, lost }
          bitOf (s.reg (pgHq 0 0) 0x090 fn) 16 = true ∧ 15 < 2 ^ bitsOf (s.reg (pgHq 0 0) 0x090 fn) 0 4
            ∧ ringDist 16 (s.eq 0 fn).head 15 ≤ ringDist 16 (s.eq 0 fn).head (s.eq 0 fn).tail ∧ ((s.eq 0 fn).tail + 1) % 16 ≠ 15)
      ∧ (let s := { rdy with srqs := [(255, { port := 0, fn := 0, head := 0, tail := 0, bufs := [] })] }
         ∃ q, Map.find? s.srqs 255 = some q ∧ q.port = 0 ∧ s.ownsSrq 0 0 255 = true ∧ 15 < 2 ^ bitsOf (s.reg (pgHq 0 0) 0x0AC 255) 0 5)
      ∧ rdy.ownsQueue 0 1 0 = false ∧ rdy.qEnabled 0 4095 = false ∧ (queueS 0 qTail).sqSize 0 0 ≤ 16 :=
  ⟨by decide, by decide, by rintro l f (rfl | rfl) (rfl | rfl) <;> decide, ⟨_, rfl, by decide⟩, by decide, by decide, by decide⟩

/-- A submission entry with this opcode, flags, address, length, result length, connection, RKEY and offset. -/
def entry (opc flags addr len resLen conn rkey offset : Nat) : Bytes :=
  [BitVec.ofNat 8 opc, BitVec.ofNat 8 flags] ++ toLE 2 5 ++ zeros 4 ++ toLE 8 addr ++ toLE 4 len ++ toLE 4 resLen ++ zeros 8 ++ toLE 2 conn ++ zeros 2
    ++ toLE 4 rkey ++ toLE 8 offset ++ zeros 16

theorem test_hyp_SqFetchRuns :
    (let s := queueS 0 qTail
     s.phase = .ready ∧ s.qEnabled 0 0 = true ∧ (s.queue 0 0).disabling = false ∧ (s.queue 0 0).sqHead ≠ (s.queue 0 0).sqTail)
      ∧ (∀ opc, opc = 0x01 ∨ opc = 0x0F → (Sqe.ofBytes (entry opc 0 64 64 32 0 0 0)).opc = opc
          ∧ (Sqe.ofBytes (entry opc 0 64 64 32 0 0 0)).commandOk = true)
      ∧ (∀ opc, opc = 0x20 ∨ opc = 0x21 ∨ opc = 0x22 ∨ opc = 0x23 → (Sqe.ofBytes (entry opc 0 0 0 0 0 0 0)).opc = opc) :=
  ⟨by decide, by rintro o (rfl | rfl) <;> decide, by rintro o (rfl | rfl | rfl | rfl) <;> decide⟩

/-- In service with partition 0, an OPEN connection 0 to node 5, and a host region 1 of PF0 of port A. -/
def connS : State :=
  { rdy with parts := [(0, Partition.created 0 5)]
             pft := { rdy.pft with conns := [(0, newConn .opened false 5 (zeros 16) 0 9 1 5 100 0)]
                                   regions := [(1, { loc := 0, base := 0, len := 4096, owner := 0, check := 7, fn := 0, finQp := 0, mem := [] })] } }

/-- A SEND and a WRITE with FIN at their longest; a REG of 4 KiB and a DEREG of the region. -/
theorem test_hyp_HostMessagesAndRegions :
    connS.phase = .ready ∧ connS.fnPart 0 0 = some 0
      ∧ (∃ c, Map.find? connS.pft.conns (Sqe.ofBytes (entry 0x20 0 64 4194304 0 0 0 0)).conn = some c ∧ c.keeper = false ∧ c.part = 0 ∧ c.state = .opened)
      ∧ ((Sqe.ofBytes (entry 0x20 0 64 4194304 0 0 0 0)).opc = 0x20 ∧ (Sqe.ofBytes (entry 0x20 0 64 4194304 0 0 0 0)).transportOk = true)
      ∧ ((Sqe.ofBytes (entry 0x21 1 64 67108864 0 0 0x10007 0)).opc = 0x21 ∧ (Sqe.ofBytes (entry 0x21 1 64 67108864 0 0 0x10007 0)).transportOk = true)
      ∧ (let e := Sqe.ofBytes (entry 0x22 0 4096 0 0 0 0 4096)
         e.opc = 0x22 ∧ e.transportOk = true ∧ 2 ≤ connS.right 0 (partTarget 0) ∧ connS.queueFn 0 e.finQp = 0
           ∧ Map.lowestFree connS.pft.regions 1 < 65536)
      ∧ (let e := Sqe.ofBytes (entry 0x23 0 0 0 0 0 0x10007 0)
         e.opc = 0x23 ∧ e.transportOk = true ∧ ∃ r, connS.regionOf e.rkey = some r ∧ r.owner = 0 ∧ r.loc = 0) :=
  ⟨by decide, by decide, ⟨_, rfl, by decide⟩, by decide, by decide, by decide, by decide, by decide, _, rfl, by decide⟩

/-- A queue pair with nothing in flight and one with a command in flight, at the write that clears ENABLE; one with a completion held for
10 ms; one whose coalescing time of 1 µs has passed. -/
theorem test_hyp_QueuesEnd :
    (∀ q, q = qTail ∨ q = qHeld →
        let s := queueS 0 q
        MayWrite s 0 (pgHq 0 0) 0x074 ∧ s.ownsQueue 0 0 0 = true ∧ s.qEnabled 0 0 = true ∧ (s.queue 0 (s.qSel 0 (pgHq 0 0))) = q
          ∧ q.disabling = false ∧ s.taken (pgHq 0 0) 0x074 0 (0x400404 : W32).toNat = withBits (s.qCfg 0 0) 23 1 0)
      ∧ (let s := { queueS 0 qHeld with time := 10000000 }
         s.phase = .ready ∧ (s.queue 0 0).held ≠ [] ∧ (s.queue 0 0).stalled = false ∧ (s.queue 0 0).heldSince + 10000000 ≤ s.time
           ∧ bitsOf (s.reg (pgHq 0 0) 0x07C 0) 8 16 ≠ 0 ∧ bitOf (s.qCfg 0 0) 22 = true ∧ (s.queue 0 0).unsignalled ≠ 0
           ∧ (s.queue 0 0).firstUnsignalled + 1000 * bitsOf (s.reg (pgHq 0 0) 0x07C 0) 8 16 ≤ s.time) :=
  ⟨by rintro q (rfl | rfl) <;> exact ⟨mayWrite_of (by decide), by decide⟩, by decide⟩

/-- Port A primary and down for 100 ms; port B up. -/
def portS : State :=
  { rdy with time := 300000000, ports := [(0, { State.reset.port 0 with perst := false }), (1, { State.reset.port 1 with linkUp := true, perst := false })] }

theorem test_hyp_PrimaryMoves :
    MayWrite portS 0 (pgHq 0 7) 0x044
      ∧ (portS.phase = .ready ∧ portS.primary < 2 ∧ portS.peerLost.contains 1 = false ∧ (portS.port portS.primary).linkUp = false
          ∧ (portS.port portS.primary).downSince + 100000000 ≤ portS.time)
      ∧ (let s := portS.setReg 0x010 0x048 (100 + 3 * 1024 + 16384)
         bitOf (s.reg (pgHq 0 0) 0x048) 14 = true ∧ (s.port s.primary).lastHb + 3 * 100 * 1000000 ≤ s.time)
      ∧ (MayWrite portS 0 (pgHq 0 0) 0x040 ∧ bitOf (4 : W32).toNat 2 = true ∧ (portS.port 1).linkUp = true)
      ∧ (MayWrite rdy 0 (pgHq 0 0) 0x040 ∧ (rdy.port 1).linkUp = false)
      ∧ (let s := { portS with peerLost := [1] }
         Takes s 0x0F ∧ (zeros 64).length = 64 ∧ zerosAt (zeros 64) 8 56 = true ∧ 1 ≠ s.primary ∧ s.peerLost.contains 1 = true) :=
  ⟨mayWrite_of (by decide), by decide, by decide, ⟨mayWrite_of (by decide), by decide⟩, ⟨mayWrite_of (by decide), by decide⟩, takes_of (by decide), by decide⟩

theorem test_hyp_HostPortsAndFunctions :
    portS.phase = .ready ∧ (portS.port 0).perst = false ∧ (portS.port 0).linkUp = false ∧ (portS.port 1).linkUp = true ∧ (rdy.port 1).perst = true
      ∧ (portS.port 0).readyAt ≤ portS.time
      ∧ (let s := portS.setPort 0 { portS.port 0 with readyAt := portS.time + 1 }
         s.phase = .ready ∧ (s.port 0).perst = false ∧ s.time < (s.port 0).readyAt) := by
  decide

/-! ## A node with data: conversations, pages, a profile and connections -/

/-- A profile image of one layer that retains rows of 16 elements, of 320 bytes and 16 more of scales, with one check of 1.0. -/
def image (id hold fmt : Nat) : Bytes :=
  toLE 4 0x46505850 ++ toLE 2 1 ++ toLE 2 256 ++ toLE 2 id ++ toLE 2 1 ++ [1, BitVec.ofNat 8 fmt, 0, BitVec.ofNat 8 hold] ++ toLE 2 1 ++ toLE 2 1
    ++ zeros 8 ++ toLE 2 32 ++ [0, 0, 1] ++ zeros 7 ++ toLE 4 256 ++ toLE 4 16 ++ toLE 4 320 ++ toLE 4 16 ++ zeros 200 ++ [0x11, 0, 0, 0]
    ++ toLE 4 0x3F800000 ++ zeros 8 ++ zeros 48 ++ zeros 16

def slotOf (id hold fmt : Nat) : ProfSlot :=
  { id, ver := 1, st := 2, manifest := false, mib := 1, wdig := [], pdig := [], qdig := [], img := image id hold fmt }

/-- Two conversations of tenant 0: a primary and a copy whose primary is at node 5. -/
def H1 : Nat := mkConv 0 0 1 1
def H2 : Nat := mkConv 0 0 2 1
def pg (k : Nat) : Nat := mkPage 0 0 k

def page0 (st : Stream) (entry : Nat) : Page :=
  Page.opening 0 H1 0 entry 2 16 1 1 st (Geo.ofImage (image 1 0 3)) (image 1 0 3) false false

def st1 : Stream :=
  { Stream.initial 3 0 with next := 256 * 5 + 3, retained := true, mirror := 1, mstate := 2, buoy := 100,
                            entries := [(0, pg 1), (1, pg 2), (2, pg 3), (3, pg 4), (4, pg 5), (5, pg 6)] }

def conv1 : Conv :=
  { part := 0, profile := 1, cls := 0, slot := 16, primaryNode := none, deleting := false, freezer := none, frozenAt := 0, answered := false, held := [] }

def kc (node : Nat) (keeper : Bool) : Conn := newConn .opened keeper node (zeros 16) 0 9 1 5 100 0

/-- In service with a partition of 100 units whose partner is node 5, pages in every state, Keeper and partition connections to node 5, a grant
held of it and one given to node 6. -/
def nodeS : State :=
  let s := { rdy with
    parts := [(0, { Partition.created 0 100 with partner := some 5, nextSerial := 50, slots := [(1, ⟨1, true, false⟩), (2, ⟨1, true, false⟩)] }),
              (1, { Partition.created 7 3 with strict := true, rsv := 4 }), (3, { Partition.created 9 3 with state := .deleting })]
    sec := { rdy.sec with keys := [(0, ⟨false, zeros 32⟩), (1, ⟨true, zeros 32⟩)] }
    convs := [(H1, conv1), (H2, { conv1 with primaryNode := some 5 })]
    prof := { rdy.prof with slots := [(0, slotOf 1 0 3), (1, slotOf 2 1 15)], lastVer := [(1, 1), (2, 1)] }
    streams := [(streamKey H1 0, st1), (streamKey H2 0, { st1 with entries := [(0, pg 7)], next := 256 })]
    pages := [(pg 1, { page0 st1 0 with state := .sealed, fill := 256, mirrored := true, sketchHeld := true }),
              (pg 2, { page0 st1 1 with state := .sealed, fill := 256, tier := 1, loc := some ⟨3, 0, 2, 1⟩, region := 16, lastRegion := 2, blocks := 0 }),
              (pg 3, { page0 st1 2 with state := .lent, fill := 256, tier := 2, lend := some { lender := 5, grant := 7, off := 0, pgen := 0 }, blocks := 0 }),
              (pg 4, { page0 st1 3 with state := .absent, fill := 256, tier := 3, blocks := 0 }),
              (pg 5, { page0 st1 4 with state := .migrating, fill := 256, dest := 1, srcTier := 0, shadow := some ⟨5, 0, 2, 1⟩ }),
              (pg 6, { page0 st1 5 with fill := 3 }),
              (pg 7, { page0 st1 0 with conv := H2, state := .sealed, fill := 256 })]
    pft := { rdy.pft with conns := [(0, kc 5 true), (1, kc 5 false), (2, { kc 5 true with state := .connecting })] }
    res := { rdy.res with peers := [(5, { fd := 3, role := 1, nand := 0, last := 0, silent := false, listsMe := false, boot := 1, epoch := 0 })] }
    ports := [(0, { State.reset.port 0 with linkUp := true, perst := false }), (1, { State.reset.port 1 with linkUp := true, perst := false })]
    tier := { rdy.tier with
      grantsIn := [{ lender := 5, grant := 7, mib := 4, rkey := 0x10001, used := [(0, 8, pg 3)], reclaim := false, till := 0, began := true }]
      grantsOut := [(0, { owner := 6, mib := 4, rkey := 0x20000, slot := 16, noPlace := false })] } }
  ((s.setReg pgPft 0x040 65536).setReg pgPft 0x084 1 5).setReg pgCmp 0x048 50

/-! ## Mirroring, handover and roles: the hypotheses of the statements are met -/

def mirrorBlk (form node conv layer force : Nat) : Bytes :=
  toLE 8 77 ++ [BitVec.ofNat 8 form, 0] ++ toLE 2 node ++ zeros 4 ++ toLE 8 conv ++ [BitVec.ofNat 8 layer, BitVec.ofNat 8 force] ++ zeros 38

/-- The same node without a partner, and without a connection to it. -/
def alone : State := { nodeS with parts := Map.adjust nodeS.parts 0 fun p => { p with partner := none } }
def cut : State := { nodeS with pft := { nodeS.pft with conns := [] } }

theorem test_hyp_MirrorCommands :
    (Takes alone 0x07 ∧ Src.portOk hostSrc = true ∧ MirrorBlk.check1 (mirrorBlk 0 5 0 0 0) = true
        ∧ 3 ≤ alone.right (alone.masterOf hostSrc) pgRes ∧ alone.compCheck 0 0 none false = .pass false
        ∧ alone.partActive ((alone.srcPart hostSrc).getD 0) = true ∧ alone.partnerOk 5 = true
        ∧ (alone.part? ((alone.srcPart hostSrc).getD 0)).bind (·.partner) ≠ some 5)
      ∧ (MirrorBlk.check1 (mirrorBlk 1 0 H1 0 0) = true ∧ nodeS.authorise hostSrc (hTenant H1) 1 = some 0
        ∧ nodeS.compCheck 0 0 (some H1) (nodeS.heldConv H1).isSome = .pass false ∧ (nodeS.heldConv H1).isSome = true
        ∧ ((nodeS.heldConv H1).any fun c => nodeS.outside c 0) = false ∧ (nodeS.stream? H1 0).isSome = true)
      ∧ (MirrorBlk.check1 (mirrorBlk 2 0 H2 0 0) = true ∧ cut.authorise hostSrc (hTenant H2) 2 = some 0
        ∧ (∃ c, cut.heldConv H2 = some c ∧ c.primaryNode = some 5) ∧ cut.keeperConn 5 = none)
      ∧ (MirrorBlk.check1 (mirrorBlk 2 0 H2 0 1) = true ∧ (MirrorBlk.ofBlock (mirrorBlk 2 0 H2 0 1)).force = true
        ∧ (nodeS.keeperConn 5).isSome = true ∧ nodeS.entryFree (some 0) = true ∧ nodeS.duplicate 0 77 = false)
      ∧ (MirrorBlk.check1 (mirrorBlk 3 5 0 0 0) = true ∧ cut.partActive 0 = true ∧ cut.keeperConn 5 = none ∧ cut.compCheck 0 0 none false = .pass false
        ∧ (∃ c, Map.find? cut.convs (MirrorBlk.ofBlock (mirrorBlk 3 5 H2 0 0)).conv = some c ∧ c.primaryNode = some 5 ∧ c.part = 0 ∧ c.deleting = false)
        ∧ MirrorBlk.check1 (mirrorBlk 3 5 H2 0 0) = true ∧ MirrorBlk.check1 (mirrorBlk 3 5 9 0 0) = true
        ∧ Map.find? cut.convs (MirrorBlk.ofBlock (mirrorBlk 3 5 9 0 0)).conv = none) :=
  ⟨⟨takes_of (by decide), by decide⟩, by decide, ⟨by decide, by decide, ⟨_, rfl, rfl⟩, by decide⟩, by decide,
    ⟨by decide, by decide, by decide, by decide, ⟨_, rfl, by decide⟩, by decide⟩⟩

/-- A conversation frozen for node 5, answered or not, and a handover under way. -/
def frozenS (answered : Bool) : State :=
  { nodeS with time := 10000000, convs := Map.adjust nodeS.convs H1 fun c => { c with freezer := some 5, answered } }

/-- The PROMOTE of the copy, whose answer is awaited. -/
def promoteS : State :=
  { nodeS with nextReq := 1, reqs := [(0, { Req.initial .promote 77 hostSrc 0 (some 0) 16 (mirrorBlk 2 0 H2 0 1) with conv := H2 })] }

theorem test_hyp_MirrorStreamsMove :
    (nodeS.phase = .ready ∧ (∃ c, nodeS.heldConv H1 = some c ∧ c.primaryNode = none ∧ c.freezer = none ∧ (nodeS.part? c.part).bind (·.partner) = some 5))
      ∧ ((promoteS.handover? 0).any fun r => (Map.find? promoteS.convs r.conv).isSome && Src.portOk r.src) = true
      ∧ (∃ c, Map.find? (frozenS true).convs H1 = some c ∧ c.freezer = some 5 ∧ c.answered = true ∧ (frozenS true).field pgCmp 0x048 0 10 ≠ 0)
      ∧ (∃ c, Map.find? (frozenS false).convs H1 = some c ∧ c.freezer.isSome = true ∧ c.answered = false ∧ c.frozenAt + 10000000 ≤ (frozenS false).time
          ∧ (frozenS false).handover? 0 = none)
      ∧ (nodeS.quiet 22 = false ∧ ∃ st, ({ nodeS with streams := Map.adjust nodeS.streams (streamKey H1 0) fun x => { x with batchFrom := some 256 } } : State).stream? H1 0
          = some st ∧ st.mstate = 2 ∧ st.batchFrom = some 256)
      ∧ (∃ st, ({ nodeS with streams := Map.adjust nodeS.streams (streamKey H1 0) fun x => { x with mstate := 1 } } : State).stream? H1 0 = some st
          ∧ st.mstate = 1 ∧ (nodeS.partnerConn 0).isSome = true) :=
  ⟨⟨by decide, _, rfl, by decide⟩, by decide, ⟨_, rfl, by decide⟩, ⟨_, rfl, by decide⟩, ⟨by decide, _, rfl, by decide⟩, _, rfl, by decide⟩

/-- A role change under way, whose grace time has passed. -/
def changingS (reclaims : Bool) : State :=
  { nodeS with time := 4000000, cmp := { nodeS.cmp with change := some { req := 0, old := 2, new := 0, start := 0, graceMs := 4, reclaims, merges := [] } } }

/-- A role change from CACHE to MERGE; one that reclaims grants, at the end of its grace time; one that does not. -/
theorem test_hyp_RoleChanges :
    (Takes nodeS 0x0D ∧ roleCheck (toLE 8 77 ++ [1] ++ zeros 55) = true ∧ nodeS.secondary hostSrc = false ∧ 3 ≤ nodeS.right 0 pgCmp
        ∧ nodeS.cmp.change = none ∧ 1 ≠ nodeS.role)
      ∧ (∀ reclaims, ∃ c, (changingS reclaims).cmp.change = some c ∧ c.reclaims = reclaims ∧ c.start + 1000000 * c.graceMs ≤ (changingS reclaims).time) :=
  ⟨⟨takes_of (by decide), by decide⟩, fun r => ⟨_, rfl, rfl, by cases r <;> decide⟩⟩

/-! ## Flash, ports and traffic: the hypotheses of the statements are met -/

/-- An ONLINE tier of 16 targets of 16 blocks of 8 pages, with units in an open block 1 and a full block 129, block 257 waiting for its erase,
block 2 with data, and a free block 18 of channel 2 that was erased 300 times. -/
def flashF : Flash :=
  let f := { Flash.empty with st := 1, formatted := true, ces := 1, luns := 1, planes := 1, cell := 1, blocksPerLun := 16, pagesPerBlock := 8 }
  { f with
    blocks := [(1, { Block.initial with free := false, openB := true, next := 4, valid := 2, erases := 3 }),
               (2, { Block.initial with free := false, next := 8, valid := 1, erases := 0 }),
               (129, { Block.initial with free := false, next := 8, valid := 1, reads := 5, refresh := true }),
               (130, { Block.initial with erases := 300 }),
               (257, { Block.initial with free := false, erasing := true, erases := 2 })]
    map := [(3, ⟨punOf f 1 0, 1, 1⟩), (4, ⟨punOf f 1 1, 1, 1⟩), (5, ⟨punOf f 2 0, 1, 2⟩), (9, ⟨punOf f 129 2, 1, 129⟩)]
    placed := [(3, [(0, punOf f 1 0)]), (4, [(0, punOf f 1 1)]), (5, [(0, punOf f 2 0)]), (9, [(0, punOf f 129 2)])]
    segDirty := [(0, 1)], segSram := [0], jpending := [⟨.map, 1, 2, 0, 3⟩], jdurable := [⟨.map, 1, 2, 0, 2⟩] }

def flashS : State := ((({ rdy with flash := flashF }).setReg pgFlm 0x064 (20 + 30 * 256)).setReg pgFlm 0x074 3)

/-- A cold mount of a tier that was closed, online or worn, or was not closed, with a block to retire; a warm one, with a relocation under way. -/
theorem test_hyp_FlashComesAndGoes :
    (MayWrite rdy 0 pgFlm 0x058 ∧ rdy.flash.mounting = false ∧ rdy.flash.formatting = false ∧ 3 ≤ rdy.right 0 pgFlm ∧ rdy.flash.st = 0)
      ∧ (MayWrite flashS 0 pgFlm 0x058 ∧ flashS.flash.mounting = false ∧ flashS.flash.formatting = false ∧ flashS.nandHeld = false)
      ∧ (∀ closed st, let f := { flashF with formatting := true, mounting := true, closed, st }
          f.formatting = true ∧ f.mounting = true ∧ f.closed = closed ∧ f.st = st ∧ ∀ kv ∈ f.blocks, kv.2.retire = false)
      ∧ (let f := flashF.updBlock 2 fun x => { x with retire := true }
         (f.block 2).retire = true)
      ∧ (let s : State := { flashS with flash := { flashF with mounting := true, moves := [(1, { block := 129, copied := [(1, 2)] })] } }
         s.undurable = [] ∧ (∀ m ∈ s.flash.moves, s.flash.moveDurable m.2 = false) ∧ ∀ r ∈ s.flash.jpending, r.kind ≠ .erase) :=
  ⟨⟨mayWrite_of (by decide), by decide⟩, ⟨mayWrite_of (by decide), by decide⟩,
    fun _ _ => ⟨rfl, rfl, rfl, rfl, by simp only [flashF]; decide⟩, by decide, by decide⟩

/-- The last codeword of a unit, that decodes at the first read or not; a commit below the limit and at it; a dirty segment, with a block
for its map unit and without. -/
theorem test_hyp_FlashReadsAndJournal :
    (flashS.phase = .ready ∧ flashS.quiet 19 = false ∧ (3 : Nat) < 4 ∧ flashS.flash.serving = true ∧ (Map.find? flashS.flash.map 9).isSome = true
        ∧ [64].getD 0 ([64].getLastD 0) ≤ 64 ∧ 64 < [65, 70].getD 0 ([65, 70].getLastD 0) ∧ rdy.pages = [])
      ∧ (flashS.flash.jpending ≠ [] ∧ flashS.flash.jseq - flashS.flash.ckptAt < 16384)
      ∧ (let f := { flashF with jseq := 16384 }
         16384 ≤ f.jseq - f.ckptAt ∧ f.jpending ≠ [])
      ∧ (Map.has flashS.flash.segDirty 0 = true ∧ ∃ x, flashS.flash.program (0 % 16) true 0 = some x)
      ∧ { flashF with blocksPerLun := 0, blocks := [] }.program (0 % 16) true 0 = none :=
  ⟨by decide, by decide, by decide, ⟨by decide, _, rfl⟩, by decide⟩

/-- A relocation of block 129 whose one copy is programmed, its record durable or not. -/
def movingB (durable : Bool) : State :=
  { flashS with flash := { flashF with moves := [(1, { block := 129, copied := [(9, punOf flashF 1 4)] })]
                                       jpending := if durable then [] else [⟨.map, 9, punOf flashF 1 4, 0, 4⟩] } }

theorem test_hyp_FlashBlocksMove :
    (flashS.phase = .ready ∧ flashS.quiet 19 = false ∧ flashS.flash.serving = true ∧ blockChannel 129 = 1 ∧ Map.has flashS.flash.moves 1 = false
        ∧ flashS.flash.channelFree 1 < flashS.field pgFlm 0x064 8 8 ∧ flashS.flash.channelFree 1 < flashS.field pgFlm 0x064 0 8
        ∧ flashS.flash.victim 1 = some 129 ∧ flashS.flash.openBlock 1 false = some 1 ∧ flashS.flash.unitsIn 129 ≠ []
        ∧ (flashS.flash.block 1).next + (flashS.flash.unitsIn 129).length ≤ flashS.flash.pagesPerBlock)
      ∧ ((flashS.flash.block 129).refresh = true ∧ (flashS.flash.block 129).bad = false ∧ (flashS.flash.block 129).free = false
          ∧ (flashS.flash.block 129).erasing = false ∧ (flashS.flash.block 129).isMap = false ∧ flashS.flash.unsettled 129 = false)
      ∧ (let span := flashS.flash.eraseSpan (fun b => blockChannel b == 2) (flashS.flash.ces * flashS.flash.targetBlocks)
         flashS.field pgFlm 0x05C 0 11 < span.2 - span.1 ∧ flashS.flash.wearPair 2 = some (2, 130) ∧ Map.has flashS.flash.moves 2 = false
           ∧ flashS.flash.unitsIn 2 ≠ [] ∧ (flashS.flash.block 130).next + (flashS.flash.unitsIn 2).length ≤ flashS.flash.pagesPerBlock)
      ∧ (∀ durable, let s := movingB durable
         ∃ m e, Map.find? s.flash.moves (blockChannel m.block) = some m ∧ s.flash.moveDurable m = durable ∧ m.copied = [(9, punOf flashF 1 4)]
           ∧ Map.find? s.flash.map 9 = some e ∧ e.block = m.block ∧ (s.flash.block m.block).retire = false)
      ∧ ((flashS.flash.block 257).erasing = true ∧ flashS.flash.unitsIn 257 = [] ∧ flashS.stillRead 257 = false
          ∧ ({ flashS with flash := flashF.updBlock 257 fun x => { x with movers := [1] }
                           pages := [(1, { page0 st1 0 with state := .migrating, dest := 0, srcTier := 1 })] } : State).stillRead 257 = true)
      ∧ ((120 : Nat) < 128 ∧ 120 % 8 < flashS.flash.ces ∧ Map.find? flashS.flash.calibrated 120 = none) :=
  ⟨by decide, by decide, by decide, fun d => ⟨{ block := 129, copied := [(9, punOf flashF 1 4)] }, ⟨punOf flashF 129 2, 1, 129⟩, by cases d <;> decide⟩,
    by decide, by decide⟩

/-- Eight ports of two lanes, and two ports of eight with the last lane of the second failing; a node table that holds node 5 at address 0. -/
def ethS : State :=
  let s := (rdy.setReg (pgEth 1) 0x044 5).setReg pgPft 0x084 1 5
  s.setReg (pgEth 0) 0x044 1

theorem test_hyp_EthernetPorts :
    (ethS.phase = .ready ∧ ethS.portUp 1 = true ∧ 1 < ethS.pft.ports ∧ ethS.pins.ref156 = true ∧ ethS.field (pgEth 1) 0x044 0 1 = 1
        ∧ ({ ethS with pft := { ethS.pft with down := [1] } } : State).portUp 1 = false)
      ∧ (bitOf (ethS.portLanes 1) 15 = true ∧ ethS.field (pgEth 1) 0x044 2 1 = 1 ∧ 4 ≤ lanesIn (ethS.portLanes 1))
      ∧ (bitOf (ethS.portLanes 0) 0 = true ∧ ethS.field (pgEth 0) 0x044 2 1 ≠ 1)
      ∧ (MayWrite ethS 0 (pgEth 1) 0x044 ∧ bitOf (ethS.reg (pgEth 1) 0x044) 0 = true ∧ bitOf (ethS.taken (pgEth 1) 0x044 0 (0 : W32).toNat) 0 = false)
      ∧ (ethS.reg (pgEth 1) 0x050 = 0 ∧ ethS.reg (pgEth 1) 0x054 = 0 ∧ ethS.field pgPft 0x084 0 1 5 = 1 ∧ ethS.nodeAddr 5 = zeros 16)
      ∧ (toBE 16 7 ≠ ethS.pftAddr ∧ toBE 16 7 ≠ ethS.linkLocal)
      ∧ ethS.ipFrame 1 (8 + (zeros 56).length) ≤ ethS.largestFrame 1 :=
  ⟨by decide, by decide, by decide, ⟨mayWrite_of (by decide), by decide⟩, by decide, by decide, by decide⟩

/-- A gate list whose first entry is at its longest interval; a list that switches at once; an entry that has ended. -/
def gateS : State :=
  let s := { rdy with time := 1000000000 }
  let t := ((s.setReg pgTc 0x090 125000000 0).setReg pgTc 0x094 255 0)
  t.setGate 1 { op := [(1, 255), (2, 1)], cur := 1, curStart := 0, pend := some (0, [(1, 255)]) }

/-- A Keeper's PFT packet, or another frame, at port 1, with the next hop known or not. -/
def frameS (what : Nat) (known : Bool) : State :=
  let s := queueFrame 1 { what, addr := zeros 16, kind := 3, entity := none, len := 84, hdr := zeros 40, payload := [] } ethS
  if known then { s with pft := { s.pft with nextHop := [(1, [1, 2, 3, 4, 5, 6])] } } else s

theorem test_hyp_TrafficControl :
    (MayWrite gateS 0 pgTc 0x080 ∧ gateS.taken pgTc 0x080 0 (0x10001 : W32).toNat < 2 ^ 32 ∧ bitOf (0x10001 : W32).toNat 16 = true
        ∧ bitsOf (gateS.taken pgTc 0x080 0 (0x10001 : W32).toNat) 0 9 ≤ 256 ∧ (gateS.gate 0).pend = none
        ∧ (∀ e ∈ gateS.pendingList 0 1, 1 ≤ e.1 ∧ e.1 ≤ 125000000) ∧ cycleOf (gateS.pendingList 0 1) ≤ 125000000)
      ∧ ((gateS.gate 1).pend = some (0, [(1, 255)]) ∧ (gateS.gate 1).switchAt 0 ≤ gateS.time)
      ∧ ((gateS.gate 1).op[(gateS.gate 1).cur]? = some (2, 1) ∧ (gateS.gate 1).curStart + 8 * 2 ≤ gateS.time)
      ∧ (∀ x ∈ [(0, false), (0, true), (2, false), (3, false)], let s := frameS x.1 x.2
          s.phase = .ready ∧ s.portUp 1 = true ∧ bitOf (s.reg pgRst 0x048) 18 = false ∧ s.boot.resetting.contains 18 = false
            ∧ s.mayStart 1 (s.classOf 3) = true ∧ ((classFrame 1 (s.classOf 3) s).any fun y => y.1.what == x.1) = true
            ∧ (s.nextMac 1).isSome = x.2 ∧ ∀ c, c < 8 → s.classOf 3 < c → s.mayStart 1 c = false ∨ (classFrame 1 c s).isNone = true) :=
  ⟨⟨mayWrite_of (by decide), by decide⟩, by decide, by decide, by decide⟩

/-! ## Connections and packets: the hypotheses of the statements are met -/

/-- An arriving packet of this type from node 5, index 9, for index `dst`. -/
def pkt (typ flags dst psn : Nat) (rest payload : Bytes) : Packet :=
  let hdr := pftHeader typ flags dst 9 5 psn 0 0 (rest ++ zeros 24)
  let data := hdr ++ payload
  { port := 0, hdr, payload
    outer := etherHeader (rdy.portMac 0) (zeros 6) none ++ ip6Header 0 0 (8 + data.length) 17 (zeros 16) (zeros 16)
      ++ (datagram (zeros 16) (zeros 16) 49152 (rdy.field pgPft 0x044 0 16) data).take 8 }

theorem arrives_of {s : State} {p : Packet} {t : Nat} (h : s.phase = .ready ∧ s.pftEnabled = true ∧ s.upPorts.contains p.port = true
    ∧ (s.quiet 17 = false ∧ s.quiet 18 = false) ∧ (64 ≤ p.frameLen ∧ p.frameLen ≤ 9216 ∧ s.addressed p = true)
    ∧ (p.csumOk = true ∧ hdrOk p.hdr = true ∧ pType p.hdr = t)) : Arrives s p t :=
  ⟨h.1, h.2.1, h.2.2.1, h.2.2.2.1, h.2.2.2.2.1, h.2.2.2.2.2⟩

/-- Connection 1 of partition 0, with what it has sent and received. -/
def withConn (c : Conn) : State := { nodeS with pft := { nodeS.pft with conns := [(0, kc 5 true), (1, c)] } }

def c1 : Conn := kc 5 false
def sent (psn : Nat) : TxPkt := { psn, addr := zeros 16, path := 0, kind := 1, hdr := pftHeader 1 4 9 1 0 psn 0 0 (zeros 24), payload := [1, 2] }

theorem test_hyp_ConnectionsOpenAndClose :
    (let s := nodeS.setSel 0 pgPft 0x088 5
     MayWrite s 0 pgPft 0x090 ∧ 2 ≤ s.right 0 (partTarget 0) ∧ s.partActive 0 = true ∧ s.field pgPft 0x084 0 1 5 = 1 ∧ s.freeConn = some 3)
      ∧ (∀ c, c = c1 ∨ c = { c1 with pkts := [sent 1] } ∨ c = { c1 with state := .error } →
          let s := (withConn c).setSel 0 pgPft 0x08C 1
          MayWrite s 0 pgPft 0x090 ∧ Map.find? s.pft.conns 1 = some c ∧ c.keeper = false ∧ 2 ≤ s.right 0 (partTarget c.part)
            ∧ (c.state = .opened ∨ c.state = .error))
      ∧ (let s := { nodeS with pft := { nodeS.pft with conns := [(0, { kc 5 true with state := .error })] } }
         s.phase = .ready ∧ s.field pgPft 0x084 0 1 5 = 1 ∧ s.freeConn = some 1
           ∧ ∀ kv ∈ s.pft.conns, kv.2.keeper = true → kv.2.node = 5 → kv.2.state = .closed ∨ kv.2.state = .error) :=
  ⟨⟨mayWrite_of (by decide), by decide⟩, by rintro c (rfl | rfl | rfl) <;> exact ⟨mayWrite_of (by decide), by decide⟩, by decide⟩

/-- CONNECTs of the tenant 0x000 of partition 0 and of a tenant that has none; ACCEPT and CLOSE. -/
theorem test_hyp_ConnectionSetup :
    (let p := pkt 4 0 0 0 [0, 0, 0, 0, 0, 0, 0, 3] []
     Arrives nodeS p 4 ∧ byteAt p.hdr 16 = 0 ∧ nodeS.tenantPart (beAt p.hdr 18 2) = some 0 ∧ nodeS.partActive 0 = true
       ∧ (heard p nodeS).freeConn = some 3)
      ∧ (let p := pkt 4 0 0 0 [0, 0, 0x0F, 0xFF, 0, 0, 0, 3] []
         Arrives nodeS p 4 ∧ byteAt p.hdr 16 = 0 ∧ nodeS.tenantPart (beAt p.hdr 18 2) = none)
      ∧ (let p := pkt 5 0 1 0 [0, 0, 0, 0, 0, 0, 0, 3] []
         let s := withConn { c1 with state := .connecting }
         Arrives s p 5 ∧ ∃ c, Map.find? (heard p s).pft.conns (pDst p.hdr) = some c ∧ c.state = .connecting ∧ c.keeper = false ∧ c.node = pNode p.hdr)
      ∧ (let p := pkt 6 0 1 0 [] []
         Arrives nodeS p 6 ∧ IsFor (heard p nodeS) p c1 ∧ c1.state = .opened)
      ∧ (let p := pkt 6 0 1 0 [] []
         let c := { c1 with state := .connecting }
         Arrives (withConn c) p 6 ∧ IsFor (heard p (withConn c)) p c ∧ c.state = .connecting ∧ c.keeper = false) :=
  ⟨⟨arrives_of (by decide), by decide⟩, ⟨arrives_of (by decide), by decide⟩, ⟨arrives_of (by decide), _, rfl, by decide⟩,
    ⟨arrives_of (by decide), ⟨by decide, by decide, by decide⟩, by decide⟩, ⟨arrives_of (by decide), ⟨by decide, by decide, by decide⟩, by decide⟩⟩

/-- An ACK of the first of two packets, and one with NOCONN; a delayed acknowledgement; expiries below the limit and at it. -/
theorem test_hyp_PacketsAcknowledged :
    (∀ code, code = 0 ∨ code = 4 →
        let p := pkt 3 0 1 0 ([0, 0, 0, 1] ++ zeros 8 ++ [BitVec.ofNat 8 code, 0, 0, 0]) []
        let c := { c1 with pkts := [sent 1, sent 2], nextPsn := 3 }
        Arrives (withConn c) p 3 ∧ IsFor (heard p (withConn c)) p c ∧ c.state = .opened ∧ beAt p.hdr 28 4 / 2 ^ 24 = code ∧ c.keeper = false
          ∧ (∀ m ∈ c.msgs, m.stream = 0 ∧ m.page = 0) ∧ c.waitq = [])
      ∧ (let c := { c1 with unacked := 1, pkts := [sent 1], firstAt := 7, timer := 9 }
         let s := { withConn c with time := 9 + 1000 * c.rto }
         s.phase = .ready ∧ Map.find? s.pft.conns 1 = some c ∧ c.state = .opened ∧ c.unacked ≠ 0 ∧ c.pkts ≠ []
           ∧ c.firstAt + 100 * s.field pgPft 0x050 8 8 ≤ s.time ∧ c.timer + 1000 * c.rto ≤ s.time ∧ c.expiries + 1 < s.field pgPft 0x048 16 4
           ∧ (withConn c).time < c.firstAt + 100 * (withConn c).field pgPft 0x050 8 8 ∧ (withConn c).time < c.timer + 1000 * c.rto)
      ∧ (let c := { c1 with pkts := [sent 1], expiries := 15 }
         let s := { withConn c with time := 1000 * c.rto }
         s.field pgPft 0x048 16 4 ≤ c.expiries + 1 ∧ c.pkts ≠ [] ∧ c.timer + 1000 * c.rto ≤ s.time)
      ∧ (Map.find? nodeS.pft.conns 1 = some c1 ∧ c1.state = .opened ∧ c1.keeper = false ∧ c1.msgs = [] ∧ nodeS.reqs = [] ∧ nodeS.pft.sends = []) :=
  ⟨by rintro k (rfl | rfl) <;> exact ⟨arrives_of (by decide), ⟨by decide, by decide, by decide⟩, by decide⟩, by decide, by decide, by decide⟩

/-- A buffer of 64 bytes of partition 0, and a host region of 4 KiB. -/
def recvS : State :=
  { nodeS with srqs := [(0, { port := 0, fn := 0, head := 0, tail := 1, bufs := [⟨0x1000, 64, 3⟩] })]
               pft := { nodeS.pft with regions := [(1, { loc := 0, base := 0x5000, len := 4096, owner := 0, check := 7, fn := 0, finQp := 0, mem := [] })] } }

/-- Packets at every distance; a SEND that fills its buffer; a WRITE of the last 16 bytes of its region, and one that goes beyond it. -/
theorem test_hyp_PacketsAccepted :
    (∀ x, x = (1, pkt 1 0 7 1 [0, 0, 0, 0, 0, 0, 0, 1] [1]) ∨ x = (2, pkt 2 0 7 1 [] [1]) ∨ x = (7, pkt 7 0 7 1 [] [1]) →
        Arrives nodeS x.2 x.1 ∧ Map.find? (heard x.2 nodeS).pft.conns (pDst x.2.hdr) = none)
      ∧ (c1.arrival (pPsn (pkt 1 0 1 0 [] []).hdr) = .dup ∧ c1.arrival (pPsn (pkt 1 0 1 0x100000 [] []).hdr) = .far
          ∧ IsFor (heard (pkt 1 0 1 0 [] []) nodeS) (pkt 1 0 1 0 [] []) c1 ∧ nodeS.field pgTc 0x074 0 20 0 = 0)
      ∧ (c1.state = .opened ∧ c1.keeper = false ∧ c1.rxGot = [] ∧ pPsn (pkt 7 0 1 1 [] []).hdr = c1.rxNext ∧ Arrives nodeS (pkt 7 0 1 1 [] []) 7)
      ∧ (let p := pkt 1 0 1 1 (toBE 4 64) (zeros 64)
         Arrives recvS p 1 ∧ IsFor (heard p recvS) p c1 ∧ sCmd p.hdr = false ∧ sOff p.hdr = 0 ∧ sLen p.hdr = 64 ∧ p.payload.length = 64
           ∧ recvS.pft.sends = [] ∧ ∃ q, Map.find? recvS.srqs 0 = some q ∧ q.bufs = [⟨0x1000, 64, 3⟩])
      ∧ (let p := pkt 2 0 1 1 (toBE 4 0x10007 ++ toBE 8 4080) (zeros 16)
         Arrives recvS p 2 ∧ IsFor (heard p recvS) p c1 ∧ bitOf (pFlags p.hdr) 0 = false ∧ recvS.pft.finHold = []
           ∧ ((recvS.regionOf (wRkey p.hdr)).any fun r => decide (r.loc < 2 ∧ r.owner = c1.part ∧ wOff p.hdr + 16 ≤ r.len)) = true
           ∧ (heard p recvS).reclaiming (wRkey p.hdr) = false)
      ∧ (let p := pkt 2 0 1 1 (toBE 4 0x10007 ++ toBE 8 4081) (zeros 16)
         Arrives recvS p 2 ∧ (heard p recvS).target c1 p.hdr 16 = none) := by
  refine ⟨?_, ⟨by decide, by decide, ⟨by decide, by decide, by decide⟩, by decide⟩, ⟨by decide, by decide, by decide, by decide, arrives_of (by decide)⟩,
    ⟨arrives_of (by decide), ⟨by decide, by decide, by decide⟩, by decide, by decide, by decide, by decide, by decide, _, rfl, by decide⟩,
    ⟨arrives_of (by decide), ⟨by decide, by decide, by decide⟩, by decide, by decide, by decide⟩, arrives_of (by decide), by decide⟩
  rintro x (rfl | rfl | rfl) <;> exact ⟨arrives_of (by decide), by decide⟩

theorem test_hyp_Beacons :
    (let p := pkt 8 0 0 0 (zeros 24) (zeros 32)
     Arrives nodeS p 8 ∧ beaconOk p = true)
      ∧ (let s := { nodeS with time := 20000000, res := { nodeS.res with beaconAt := 10000000 } }
         s.phase = .ready ∧ s.pftEnabled = true ∧ s.upPorts ≠ [] ∧ s.res.beaconAt + 1000000 * s.field pgRes 0x058 0 10 = s.time)
      ∧ (let s := { nodeS with time := 1000000000000 }
         ∃ x, Map.find? s.res.peers 5 = some x ∧ x.silent = false
           ∧ x.last + s.field pgRes 0x058 0 10 * s.field pgRes 0x058 10 4 * 1000000 ≤ s.time) :=
  ⟨⟨arrives_of (by decide), by decide⟩, by decide, _, rfl, by decide⟩

/-! ## Power, pins and boot: the hypotheses of the statements are met -/

/-- A decision 1 ms after the last and one before that; the three ways that a decision goes; a sample at the trip points and below. -/
theorem test_hyp_PowerFollows :
    (∀ liquid, let s := { rdy with fuses := { rdy.fuses with liquid } }
        MayWrite s 0 pgPwr 0x040 ∧ s.profileNow ≠ 0 ∧ s.pwr.profileNext ≠ some 0 ∧ s.fuses.liquid = liquid ∧ s.position ≤ 9
          ∧ s.pwr.profileNext.getD s.profileNow < 3)
      ∧ (let s := { rdy with time := 3000000, pwr := { rdy.pwr with decidedAt := 2000000, bucket := 240000 } }
         s.pwr.decidedAt + 1000000 ≤ s.time ∧ ({ s with time := 2999999 } : State).time < s.pwr.decidedAt + 1000000
           ∧ ({ s with pwr := { s.pwr with thermal := true } } : State).pwr.thermal = true ∧ s.pwr.thermal = false ∧ s.pwr.nearThermal = false
           ∧ s.pwr.holdoff = false ∧ s.pwr.rising = false ∧ 0 < (setPosition 3 s).position)
      ∧ (let s := { rdy with pwr := { rdy.pwr with rising := true, target := 9 } }
         s.phase = .ready ∧ s.pwr.rising = true ∧ s.pwr.target ≤ 9)
      ∧ 0 < rdy.field pgPwr 0x054 8 7 :=
  ⟨by intro l; cases l <;> exact ⟨mayWrite_of (by decide), by decide⟩, by decide⟩

/-- A parameter page of one LUN, one plane, SLC, of 16 blocks of 8 pages of 16 KiB and 2,208 spare bytes. -/
def paramPage : Bytes :=
  let b := toBE 4 0x4F4E4649 ++ zeros 76 ++ toLE 4 16384 ++ toLE 2 2208 ++ zeros 6 ++ toLE 4 8 ++ toLE 4 16 ++ [1, 0, 3] ++ zeros 151
  b ++ toLE 2 (onfiCrc b)

/-- Every phase that a power-on may find; a flush of a journal with no dirty segment and with one that has a place to go. -/
theorem test_hyp_PinsAndBoot :
    (∀ ph, ph = Phase.ready ∨ ph = .flushing ∨ ph = .waitPwrFail ∨ ph = .off ∨ ph = .stopped ∨ ph = .flushed ∨ ph = .tripped →
        ({ flashS with phase := ph } : State).phase = ph)
      ∧ (flashS.boot.recovery = false ∧ flashS.flash.serving = true ∧ flashS.boot.stalledPlls.contains 8 = false
          ∧ flashS.flash.segDirty = [(0, 1)] ∧ (flashS.flash.program (0 % 16) true 0).isSome = true
          ∧ State.reset.phase = .off ∧ State.reset.pins.pwrFailN = true)
      ∧ (Geometry.ofBoard 1 [zeros 256, paramPage]).isSome = true :=
  ⟨fun _ _ => rfl, by decide, by decide +kernel⟩

/-! ## Compositions, the sideband, tiers and lending: the hypotheses of the statements are met -/

theorem test_hyp_CompositionsMeter :
    (let s := rdy.setSel 0 pgCmp 0x050 15
     s.winOf 0 pgCmp 0x058 = 15 ∧ MayWrite s 0 pgCmp 0x058 ∧ s.field pgCmp 0x05C 0 1 15 = 0 ∧ s.reg pgCmp 0x058 15 ≠ (1 : W32).toNat
       ∧ MayWrite s 0 pgCmp 0x05C ∧ s.reg pgCmp 0x05C 15 = 0 ∧ bitOf (1 : W32).toNat 0 = true)
      ∧ (let s := (rdy.setReg pgCmp 0x05C 1 0).setReg pgCmp 0x058 0xFFFFFFFF 0
         s.winOf 0 pgCmp 0x058 = 0 ∧ s.field pgCmp 0x05C 0 1 0 = 1 ∧ newer 32 (0 : W32).toNat (s.reg pgCmp 0x058 0) = true
           ∧ MayWrite s 0 pgCmp 0x05C ∧ s.reg pgCmp 0x05C 0 = 1 ∧ bitOf (0 : W32).toNat 0 = false)
      ∧ (rdy.phase = .ready ∧ rdy.time < rdy.cmp.sampledAt + 1000000
          ∧ ∃ s : State, s.phase = .ready ∧ s.cmp.sampledAt + 1000000 = s.time ∧ Map.find? s.cmp.since 16 = some 0 ∧ 0 ≤ s.time) :=
  ⟨⟨by decide, mayWrite_of (by decide), by decide, by decide, mayWrite_of (by decide), by decide⟩,
    ⟨by decide, by decide, by decide, mayWrite_of (by decide), by decide⟩, by decide, by decide,
    { rdy with time := 1000000, cmp := { rdy.cmp with since := [(16, 0)] } }, by decide⟩

theorem test_hyp_SidebandReaches :
    rdy.phase = .ready ∧ ({ rdy with phase := .recovery } : State).phase = .recovery ∧ (zeros 4).length = 4
      ∧ ({ rdy with fuses := { rdy.fuses with debugOpen := false } } : State).fuses.debugOpen = false := by decide

/-- A migrating page whose copy is durable at each destination, one whose source copy may go. -/
def movingS (dest src : Nat) : State :=
  { nodeS with tier := { nodeS.tier with grantsIn := [] }
               pages := Map.adjust nodeS.pages (pg 5) fun p => { p with
                 dest := dest, srcTier := src, tier := src, durable := true, loc := some ⟨5, 0, 2, 1⟩, shadow := none
                 lend := some { lender := 5, grant := 7, off := 0, pgen := 0 } } }

theorem test_hyp_MigrationsEnd :
    (∀ x, x = (0, 1) ∨ x = (1, 0) ∨ x = (2, 0) ∨ x = (2, 1) ∨ x = (0, 2) → let s := movingS x.1 x.2
        s.phase = .ready ∧ s.quiet 21 = false ∧ s.tier.grantsIn = [] ∧ s.flash.mounting = false
          ∧ ((Map.find? s.pages (pg 5)).any fun p => p.state == .migrating && !p.restoring && s.destDurable p && p.dest == x.1 && p.srcTier == x.2) = true)
      ∧ (let s := { nodeS with tier := { nodeS.tier with grantsIn := [] }, pages := Map.adjust nodeS.pages (pg 1) fun p => { p with srcHeld := true } }
         ((Map.find? s.pages (pg 1)).any fun p => p.srcHeld && p.srcReaders == [] && p.holders == 0) = true) :=
  ⟨by rintro x (rfl | rfl | rfl | rfl | rfl) <;> decide, by decide⟩

/-- A page with a new age in a UNIFIED partition whose rules name no target for it. -/
def agedS : State := { nodeS with time := 10000000000000000 }

/-- One partition of one unit, with pages of this many blocks in 12 regions, and no grant. -/
def pressedS (blocks low high : Nat) : State :=
  { nodeS with
    parts := [(0, Partition.created 0 1)], tier := { nodeS.tier with grantsIn := [], suspended := [] }
    pages := (List.range 12).map fun k => (pg (20 + k),
      { page0 st1 0 with state := .sealed, shadow := some ⟨3, 0, 2, 1⟩, region := k, lastRegion := k, blocks := blocks }) }.setReg
    pgTier 0x040 (65536 + low + 256 * high)

/-- An APPEND of tokens in a format of two bytes, or of mask segments: handle, flags, first, count and data. -/
def appendBlk (handle flags first count : Nat) (data : Bytes) : Bytes :=
  toLE 8 77 ++ toLE 8 handle ++ toLE 4 flags ++ toLE 4 first ++ toLE 4 count ++ zeros 36 ++ data

def oneToken : Bytes := appendBlk H1 (2 * 2 ^ 11) 0 1 (zeros 128)

/-- A refill of the ABSENT page, in a tier with no block to give. -/
def refillToken : Bytes := appendBlk H1 (2 * 2 ^ 11 + 2 ^ 9) 768 1 (zeros 128)

/-- An APPEND that waits for an eviction, with CACHE pages to evict, which have a shadow or not, or which a query holds. -/
def evictS (blk : Bytes) (sh : Option Locator) (holders : Nat) : State :=
  { nodeS with
    parts := Map.adjust nodeS.parts 0 fun p => { p with units := if blk = refillToken then 0 else p.units }
    reqs := [(3, { Req.initial .append 77 hostSrc 0 (some 0) 16 blk with scanned := false, conv := H1, profile := 1, version := 1 })]
    pages := Map.mapVals nodeS.pages fun _ p => { p with retained := false, shadow := sh, holders } }

theorem test_hyp_PagesMoveDown :
    (agedS.phase = .ready ∧ agedS.quiet 21 = false ∧ ((Map.find? agedS.pages (pg 1)).any fun p =>
        let b := ageBucket agedS.time p.sealTime
        let u := agedS.updPage (pg 1) fun q => { q with age := b }
        p.state == .sealed && agedS.unified p.part && b != p.age && bitsOf (u.ruleAction (u.pageKey p b 2)) 0 2 == 3) = true)
      ∧ (let s := pressedS 8 1 2
         s.phase = .ready ∧ s.tier.grantsIn = [] ∧ s.tier.suspended = [] ∧ s.tier.relieving = [] ∧ (∀ kv ∈ s.pages, kv.2.restoring = false)
           ∧ s.parts = [(0, Partition.created 0 1)] ∧ (Partition.created 0 1).flagged = false ∧ s.field pgTier 0x040 16 1 = 1
           ∧ s.field pgTier 0x040 0 7 * s.shareAll 0 ≤ 100 * s.shareFree 0)
      ∧ (let s := pressedS 4096 50 51
         s.field pgTier 0x040 0 7 ≤ s.field pgTier 0x040 8 7 ∧ 100 * s.shareFree 0 < s.field pgTier 0x040 0 7 * s.shareAll 0 ∧ (s.oldest 0 true).isSome = true
           ∧ 100 * (s.shareFree 0 + s.shareComing 0) < s.field pgTier 0x040 8 7 * s.shareAll 0)
      ∧ (∀ x ∈ [(oneToken, none, 0), (refillToken, none, 1), (refillToken, none, 0), (refillToken, some (⟨3, 0, 2, 1⟩ : Locator), 0)],
          let s := evictS x.1 x.2.1 x.2.2
          s.phase = .ready ∧ s.quiet 21 = false ∧ ((s.live 3).any fun r =>
            let v := retryAppend 3 r s
            r.kind == .append && !r.scanned && r.part == some 0 && v.atCheck10 3 == (x.1 == refillToken)
              && (x.1 == oneToken || (v.nextVictim 0).isSome == (x.2.2 == 0)
                && (v.nextVictim 0).all fun h => (Map.find? v.pages h).any fun p => p.shadow == x.2.1)) = true) :=
  ⟨by decide, by decide, by decide, by decide⟩

def lendBlk (form flags first count conv : Nat) : Bytes :=
  toLE 8 77 ++ [BitVec.ofNat 8 (form + flags), 0, 0, 0] ++ toLE 4 first ++ toLE 4 count ++ zeros 4 ++ toLE 8 conv ++ zeros 32
def fetchBlk (len : Nat) : Bytes := toLE 8 78 ++ zeros 8 ++ toLE 4 len ++ toLE 4 0x10005 ++ zeros 40
def reclaimBlk (grace : Nat) : Bytes := toLE 8 79 ++ zeros 4 ++ toLE 2 grace ++ zeros 50

/-- A lender with one grant of 4 MiB to node 5, its region, and an open Keeper connection to it. -/
def lenderS : State :=
  { nodeS with
    tier := { nodeS.tier with grantsOut := [(0, { owner := 5, mib := 4, rkey := 2, slot := 16, noPlace := false })] }
    pft := { nodeS.pft with regions := [(2, { loc := 2, base := 0, len := 4194304, owner := 256, check := 7, fn := 0, finQp := 0, mem := [] })] } }.setReg
      pgCmp 0x040 2

/-- A grant of one MiB and more than is free; its return; a FETCH of a whole grant; reclaims of the shortest and the longest grace; its end. -/
theorem test_hyp_LenderServes :
    (lenderS.phase = .ready ∧ lenderS.keeperPeer pftSrc = some 5 ∧ Takes lenderS opLend ∧ lenderS.compCheck 0 0 none false = .pass false)
      ∧ (∀ n, n = 1 ∨ n = 65536 → LendBlk.check1 (lendBlk 0 0 0 n 0) = true ∧ (LendBlk.ofBlock (lendBlk 0 0 0 n 0)).form = 0
          ∧ (LendBlk.ofBlock (lendBlk 0 0 0 n 0)).count = n ∧ 0 < min n lenderS.lendable')
      ∧ (lenderS.role = 2 ∧ Map.lowestFree lenderS.pft.regions 1 < 65536)
      ∧ (LendBlk.check1 (lendBlk 2 0 0 0 0) = true ∧ (Map.find? lenderS.tier.grantsOut 0).isSome = true
          ∧ ((Map.find? lenderS.tier.grantsOut 0).any fun g => g.owner == 5 && !lenderS.inTransit g) = true ∧ lenderS.reqs = []
          ∧ (∃ r, Map.find? lenderS.pft.regions 2 = some r ∧ r.mem = [])
          ∧ (let s := { lenderS with pft := { lenderS.pft with finHold := [⟨0, 0, 0, 2 * 65536 + 7, 0, 0, []⟩] } }
             ((Map.find? s.tier.grantsOut 0).any fun g => g.owner == 5 && s.inTransit g) = true)
          ∧ (let s := { lenderS with tier := { lenderS.tier with grantsOut := [(0, { owner := 6, mib := 4, rkey := 2, slot := 16, noPlace := false })] } }
             ((Map.find? s.tier.grantsOut 0).any fun g => g.owner != 5) = true))
      ∧ ((lenderS.setReg pgCmp 0x040 0).role = 0
          ∧ (let s := { lenderS with tier := { lenderS.tier with grantsOut := [(0, { owner := 5, mib := 2 ^ 20, rkey := 2, slot := 16, noPlace := false })] } }
             s.role = 2 ∧ s.lendable' = 0))
      ∧ (Takes lenderS opFetch ∧ (fetchBlk 4194304).length = 64 ∧ zerosAt (fetchBlk 4194304) 32 32 = true
          ∧ (FetchBlk.ofBlock (fetchBlk 4194304)).grant = 0 ∧ (FetchBlk.ofBlock (fetchBlk 4194304)).len ≤ 4 * 2 ^ 20
          ∧ (∃ c, Map.find? lenderS.pft.conns 0 = some c ∧ c.state = .opened))
      ∧ (Takes lenderS opReclaim ∧ ∀ g, g = 0 ∨ g = 1000 → (reclaimBlk g).length = 64 ∧ zerosAt (reclaimBlk g) 14 50 = true
          ∧ leAt (reclaimBlk g) 12 2 = g ∧ leAt (reclaimBlk g) 8 4 = 0 ∧ lenderS.tier.grantsOut.length = 1)
      ∧ (∃ r : Req, r.kind = .reclaim ∧ r.status = none ∧ r.deadline.getD 0 ≤ lenderS.time ∧ r.waits = [0]) :=
  ⟨⟨by decide, by decide, takes_of (by decide), by decide⟩, by rintro n (rfl | rfl) <;> decide, by decide,
    ⟨by decide, by decide, by decide, by decide, ⟨_, rfl, rfl⟩, by decide, by decide⟩, by decide,
    ⟨takes_of (by decide), by decide, by decide, by decide, by decide, _, rfl, rfl⟩, ⟨takes_of (by decide), by rintro n (rfl | rfl) <;> decide⟩,
    { Req.initial .reclaim 79 .keeper 0x80 none 16 [] with waits := [0] }, by decide⟩

/-- The partition FLAGGED, and page 2 in NAND. -/
def placeS : State := { nodeS with parts := Map.adjust nodeS.parts 0 fun p => { p with flagged := true } }

theorem test_hyp_OwnerServes :
    (Takes placeS opLend ∧ ∀ sticky, sticky = 0 ∨ sticky = 16 →
        let l := LendBlk.ofBlock (lendBlk 1 sticky 1 1 H1)
        LendBlk.check1 (lendBlk 1 sticky 1 1 H1) = true ∧ l.form = 1 ∧ l.flag = 0 ∧ l.count = 1 ∧ l.first = 1 ∧ l.sticky = (sticky != 0)
          ∧ placeS.authorise hostSrc (hTenant l.conv) 2 = some 0 ∧ placeS.keyed 0 = true ∧ (placeS.heldConv l.conv).isSome = true
          ∧ ((placeS.heldConv l.conv).any fun c => placeS.outside c l.layer) = false
          ∧ placeS.compCheck l.comp l.epoch (some l.conv) true = .pass false ∧ placeS.entryFree (some 0) = true
          ∧ placeS.duplicate 0 l.id = false ∧ placeS.frozen l.conv = false ∧ placeS.unified 0 = false
          ∧ ((placeS.stream? l.conv l.layer).bind fun st => Map.find? st.entries l.first) = some (pg 2)
          ∧ ((Map.find? placeS.pages (pg 2)).any fun p => p.state == .sealed && !p.srcHeld && p.tier == 1
              && decide (blocksOf (storedBytes (placeS.pageGeo p) p.fmt) ≤ placeS.partFree p.part (placeS.bestRegion p.part))) = true)
      ∧ (let s := { nodeS with pages := Map.adjust nodeS.pages (pg 3) fun p => { p with shadow := some ⟨3, 0, 2, 1⟩ } }
         ((Map.find? s.pages (pg 3)).any fun p => p.movable && p.state == .lent && p.tier == 2 && (p.lend.any fun x => x.lender == 5 && x.grant == 7)
            && p.shadow.isSome) = true ∧ ∃ g ∈ s.tier.grantsIn, g.lender = 5 ∧ g.grant = 7) :=
  ⟨⟨takes_of (by decide), by rintro n (rfl | rfl) <;> decide⟩, by decide⟩

/-! ## Faults and spares: the hypotheses of the statements are met -/

/-- Pod 25 of region 15 with a lane under test, that had faults just now or never; its spares are pods 26 and 27. -/
def podS (testing stopped : Bool) (last : Option Nat) : State :=
  { rdy with pods := [(15 * 28 + 25, { rdy.pod 15 25 with
      stopped, passes := [{ page := pg 1, bytes := 4096, members := [(0, 0)], units := 2, lanes := [0, 1], rerun := [] }], podFaultAt := last, unitFaultAt := last, lanes := [(63, { st := 0, faultAt := last, testing, forced := false })] })] }

theorem test_hyp_LanesAndPods :
    (∀ last, last = none ∨ last = some 0 →
        (let s := podS false false last
         s.phase = .ready ∧ Map.find? s.res.armed (pgPod 15 25) = none ∧ (s.pod 15 25).st = 0 ∧ ((s.pod 15 25).lane 63).st = 0
           ∧ ((s.pod 15 25).lane 63).testing = false ∧ s.within24 (s.pod 15 25).unitFaultAt = last.isSome ∧ (s.pod 15 25).stopped = false
           ∧ (s.pod 15 25).accumulates 65 = false ∧ (s.pod 15 25).accumulates 1 = true ∧ (s.pod 15 25).computing 1 = true
           ∧ ((s.pod 15 25).lane 1).testing = false ∧ (s.pod 15 25).passes ≠ []
           ∧ ((List.range 28).filter fun k => k ≠ 25 ∧ (s.pod 15 k).st = 1) = [26, 27])
        ∧ (let s := podS true true last
           ((s.pod 15 25).lane 63).testing = true ∧ ((s.pod 15 25).lane 63).forced = false ∧ ((s.pod 15 25).lane 63).st = 0
             ∧ s.within24 ((s.pod 15 25).lane 63).faultAt = last.isSome ∧ (s.pod 15 25).lanesIn 1 ≠ []
             ∧ (s.pod 15 25).stopped = true ∧ (s.pod 15 25).forced = false ∧ s.within24 (s.pod 15 25).podFaultAt = last.isSome)) := by
  rintro l (rfl | rfl) <;> decide

/-- Rows of HBM stack 7 with errors of the last 24 hours; sealed pages with and without a shadow. -/
def rowS (n : Nat) : State :=
  { nodeS with res := { nodeS.res with rowErrors := [(rowKey 7 0 0, List.replicate n 0)] } }
/-- FIPS 197, C.3. -/
theorem test_aes :
    Aes.encrypt (toBE 32 0x000102030405060708090a0b0c0d0e0f101112131415161718191a1b1c1d1e1f) (toBE 16 0x00112233445566778899aabbccddeeff)
      = toBE 16 0x8ea2b7ca516745bfeafc49904b496089 := by decide +kernel
/-- SP 800-38B, D.3, example 10. -/
theorem test_cmac :
    Aes.cmac (toBE 32 0x603deb1015ca71be2b73aef0857d77811f352c073b6108d72d9810a30914dff4) (toBE 16 0x6bc1bee22e409f96e93d7e117393172a)
      = toBE 16 0x28a7023f452e8f82bd4bf28d8c37c35c := by decide +kernel
/-- IEEE 1619, vector 10. -/
theorem test_xts :
    Aes.xtsEncrypt
        (toBE 64 0x27182818284590452353602874713526624977572470936999595749669676273141592653589793238462643383279502884197169399375105820974944592)
        (toLE 16 0xFF) (toBE 16 0x000102030405060708090a0b0c0d0e0f)
      = toBE 16 0x1c3b3a102f770386e4836c99e370cf9b := by decide +kernel
/-- RFC 6979, A.2.5, the signature of "sample" with SHA-256. -/
theorem test_p256 :
    P256.verify (toBE 32 0x60FED4BA255A9D31C961EB74C6356D68C049B8923B61FA6CE669622E60F29FB6
          ++ toBE 32 0x7903FE1008B8BC99A41AE9E95628BC64F2F1B20C2D7E9F5177A3C294D4462299)
        (toBE 32 0xAF2BDBE1AA9B6EC1E2ADE1D694F41FC71A831D0268E9891562113D8A62ADD1BF)
        (toBE 32 0xEFD48B2AACB6A8FD1140DD9CD45E81D69D2C877B56AAF991C34D0EA84EAF3716
          ++ toBE 32 0xF7CB1C942D657C41D436C7A1B6E29F65F3E900DBB9AFF4064DC4AB2F843ACDA8) = true := by decide +kernel
/-- One symbol of a word is in error, and two are. -/
theorem test_one_symbol : (symbolsCorrected [(35, 0x80)], beyondCode [(35, 0x80)]) = (1, false) := by decide +kernel
theorem test_two_symbols : (symbolsCorrected [(0, 1), (35, 0x80)], beyondCode [(0, 1), (35, 0x80)]) = (0, true) := by decide +kernel

def struckS (sh : Option Locator) : State :=
  { nodeS with pages := Map.adjust nodeS.pages (pg 1) fun p => { p with shadow := sh, retained := false } }

theorem test_hyp_MemoryFaults :
    (nodeS.phase = .ready ∧ nodeS.res.armed = [] ∧ nodeS.res.remapped.contains (rowKey 7 0 0) = false ∧ symbolsCorrected [(35, 0x80)] = 1
        ∧ beyondCode [(0, 1), (35, 0x80)] = true ∧ (5 * 2 ^ 32 - 1) / 2 ^ 32 ≠ 5 ∧ ∀ w ∈ [[(35, 0x80)]], beyondCode w = false)
      ∧ (∀ n, n = 0 ∨ n = 1 ∨ n = 2 → ((Map.getD (rowS n).res.rowErrors (rowKey 7 0 0) []).filter fun x =>
          decide ((rowS n).time < x + 86400000000000)).length = n)
      ∧ (rowS 2).reserveUsed 7 + Config.rowBlocks ≤ 131072
      ∧ (∀ sh, sh = none ∨ sh = some ⟨3, 0, 2, 1⟩ → ((Map.find? (struckS sh).pages (pg 1)).any fun p =>
          p.state == .sealed && p.tier == 0 && p.hbmBlocks != 0 && p.readers == [] && p.holders == 0 && (p.shadow != none || !p.retained)) = true)
      ∧ ((Map.find? nodeS.pages (pg 1)).any fun p => (nodeS.region p.region).aesSpare) = true
      ∧ (nodeS.region 15).aesSpare = true :=
  ⟨⟨by decide, by decide, by decide, by decide +kernel, by decide +kernel, by decide, by decide +kernel⟩, by rintro n (rfl | rfl | rfl) <;> decide,
    by rw [show (rowS 2).reserveUsed 7 = 0 from by decide]; unfold Config.rowBlocks; omega,
    by rintro n (rfl | rfl) <;> decide, by decide, by decide⟩

theorem test_hyp_PathsAndMargins :
    (nodeS.phase = .ready ∧ nodeS.res.armed = [] ∧ nodeS.res.failedPaths.contains (2 * 65536 + 3) = false
        ∧ ([[(35, 0x80)]].takeWhile beyondCode).length ≤ 4 ∧ 4 < ((List.replicate 5 [(0, 1), (35, 0x80)]).takeWhile beyondCode).length)
      ∧ (nodeS.field (pgDie 3) 0x048 12 3 < 4 ∧ 4 ≤ (nodeS.setReg (pgDie 3) 0x048 (4 * 4096)).field (pgDie 3) 0x048 12 3)
      ∧ (nodeS.res.keeperSpare = true ∧ 1 < nodeS.res.keeperPairs)
      ∧ (∀ kind, kind ≤ 4 → 0 < nodeS.field pgRes 0x060 0 16 kind ∧ Map.find? nodeS.res.marginRaised (kind * 65536 + 255) = none) := by
  refine ⟨⟨by decide, by decide, by decide, by decide +kernel, by decide +kernel⟩, by decide, by decide, ?_⟩
  intro k hk
  have : k = 0 ∨ k = 1 ∨ k = 2 ∨ k = 3 ∨ k = 4 := by omega
  rcases this with rfl | rfl | rfl | rfl | rfl <;> decide

/-! ## Queries: the hypotheses of the statements are met -/

/-- A query block of one token in FP32: its control word, range, selection word, deadline and conversation. -/
def queryBlk (ctl start len sel dl conv : Nat) : Bytes :=
  toLE 8 77 ++ toLE 8 conv ++ toLE 4 (2 * 256 + 2 ^ 20 + ctl) ++ toLE 4 start ++ toLE 4 len ++ toLE 4 sel ++ zeros 4 ++ toLE 4 dl ++ zeros 24
    ++ toLE 4 5 ++ zeros 60 ++ (List.range 32).flatMap fun _ => [0, 0, 0x80, 0x3F]

theorem admits_of {s : State} {src : Src} {op id tenant need comp epoch part : Nat} {h : Nat} {held : Bool}
    (t : s.phase = .ready ∧ s.commandWaits op = false)
    (g : s.authorise src tenant need = some part ∧ s.keyed part = true ∧ s.compCheck comp epoch (some h) held = .pass false
      ∧ s.entryFree (some part) = true ∧ s.duplicate (s.masterOf src) id = false ∧ s.frozen h = false) :
    Admits s src op id tenant need comp epoch (some h) held part :=
  ⟨takes_of t, g.1, g.2.1, g.2.2.1, ⟨g.2.2.2.1, g.2.2.2.2.1⟩, fun _ e => by cases e; exact g.2.2.2.2.2⟩

def qAll : Bytes := queryBlk 0 0 1500 0 100 H1
def qOne : Bytes := queryBlk 0 0 1 0 0 H1
def qNone : Bytes := queryBlk 0 1536 1 0 0 H1

/-- A block that breaks Table 3-1; a tenant without a right; a range with an ABSENT page, one with no page, and one with a page. -/
theorem test_hyp_QueriesStart :
    (Takes nodeS opQuery ∧ Query.check1 (queryBlk 0 0 0 0 0 H1) = false ∧ Query.check1 (queryBlk 0 0 16777217 0 0 H1) = false)
      ∧ (Query.check1 qAll = true ∧ nodeS.authorise (.host 0 1 0 5 0 64) (hTenant H1) 1 = none)
      ∧ (Admits nodeS hostSrc opQuery 77 (hTenant H1) 1 0 0 (some H1) true 0 ∧ (Query.ofBlock qAll).id = 77 ∧ (Query.ofBlock qAll).conv = H1
          ∧ nodeS.heldConv H1 = some conv1 ∧ nodeS.resident 1 = some (0, slotOf 1 0 3))
      ∧ (∀ b, b = qAll ∨ b = qOne ∨ b = qNone →
          let q := Query.ofBlock b
          let g := Geo.ofImage (image 1 0 3)
          Query.check1 b = true ∧ q.layer < g.layers ∧ b.length = q.fullLen g ∧ pathOk q.path g (image 1 0 3) = true
            ∧ selPermitted q (image 1 0 3) = true ∧ nodeS.maskOk q = true)
      ∧ (nodeS.absentEntries (Query.ofBlock qAll) qAll = [3] ∧ nodeS.absentEntries (Query.ofBlock qOne) qOne = []
          ∧ nodeS.rangePages (Query.ofBlock qNone) = []
          ∧ bindItems (Query.ofBlock qOne) (Geo.ofImage (image 1 0 3))
              ((nodeS.rangePages (Query.ofBlock qOne)).filter fun x => x.2.2.state != .absent && !x.2.2.refill) ≠ []) :=
  ⟨⟨takes_of (by decide), by decide⟩, by decide, ⟨admits_of (by decide) (by decide), by decide⟩, by rintro b (rfl | rfl | rfl) <;> decide, by decide⟩

def item (st : ItemState) : Item :=
  { entry := 0, page := pg 1, region := 2, set := 0, slice := 2, state := st, pod := 3, fill := 256, opened := false, grouped := false, units := 1,
    heldAt := 0, streamed := false, fellBack := false, handed := false }

/-- A query of the first page, with its item in this state, and its group, pod and region as that state has them. -/
def workS (st : ItemState) (scanned : Bool) (window : Nat) : State :=
  let s := { nodeS with
    time := 1000000, nextReq := 1
    reqs := [(0, { Req.initial .query 77 hostSrc 0 (some 0) 16 (queryBlk 1024 0 1 (1 + 16 + 2048) 0 H1) with
      conv := H1, profile := 1, version := 1, items := [item st], scanned, heads := 2, dv := 16, deadline := some 1000000 })]
    pods := [(2 * 28 + 3, { nodeS.pod 2 3 with
      passes := if st = ItemState.queued then [{ page := pg 1, bytes := 4096, members := [(0, 0)], units := 1, lanes := [0], rerun := [] }] else []
      sets := if st = ItemState.queued then [{ req := 0, set := 0, bytes := 4096, expanded := false, anchor := true, acc := [] }] else [] })]
    regions := if st = ItemState.held then [(2, { nodeS.region 2 with groups :=
      [{ id := 9, page := pg 1, tailForm := false, profile := 1, version := 1, path := 2, part := 256, since := 0, members := [(0, 0)] }] })] else [] }
  s.setReg (pgRegn 2) 0x04C window

theorem test_hyp_QueryWork :
    (let s := { workS .waiting false 0 with
       streams := Map.adjust nodeS.streams (streamKey H1 0) fun x => { x with home := some 2 }
       pages := Map.adjust nodeS.pages (pg 1) fun p => { p with sketchHeld := false, sketch := zeros 64 } }
     s.phase = .ready ∧ s.quiet 2 = false ∧ (s.missingSketch 2).isSome = true)
      ∧ (let s := workS .waiting false 0
         ((Map.find? s.reqs 0).any fun r =>
           let q := Query.ofBlock r.blk
           r.kind == .query && !r.scanned && r.status.isNone && (r.items.all fun x => x.state == .waiting) && r.items.contains (item .waiting)
             && decide ((item .waiting).entry < q.sink) && ((Map.find? s.pages (pg 1)).any fun p => s.attended q r.blk 0 p.fill != [])) = true)
      ∧ (∀ w, w = 0 ∨ w = 1 → let s := workS .waiting true w
          ((Map.find? s.reqs 0).any fun r => (Map.find? s.pages (pg 1)).any fun p =>
            let u := updItem 0 0 (fun x => { x with streamed := false }) (moveItem 0 0 p.lastRegion (seeMask 0 0 s))
            p.lastRegion == 2 && p.tier == 0 && p.state == .sealed && !p.restoring && !s.quiet p.lastRegion && (s.region p.lastRegion).groups == []
              && s.itemSlots r (item .waiting) p.fill != []
              && s.itemSlots { r with seen := [(0, [])] } (item .waiting) p.fill == [] && (u.mayHold p.lastRegion r == decide (w = 1))
              && (u.choosePod p.lastRegion r.part r.profile r.version (u.podFits [(0, 0)])).isSome) = true)
      ∧ (let s := workS .held true 1
         s.quiet 2 = false ∧ ((s.region 2).groups.find? fun x => x.id == 9).isSome = true
           ∧ 0 + 100 * s.field (pgRegn 2) 0x04C 0 8 ≤ s.time ∧ (assign 2 [(0, 0)] s).isSome = true ∧ s.stillThere 2 (0, 0) = true
           ∧ ({ s with time := 99 } : State).time < 0 + 100 * s.field (pgRegn 2) 0x04C 0 8
           ∧ ({ s with pages := Map.adjust s.pages (pg 1) fun p => { p with lastRegion := 4 } } : State).stillThere 2 (0, 0) = false)
      ∧ (∀ more ∈ [[], [item .waiting], [item .done]],
          let w := workS .queued true 0
          let s := { w with reqs := Map.adjust w.reqs 0 fun r => { r with items := r.items ++ more } }
          s.quiet 2 = false ∧ ((s.pod 2 3).passes.map (·.members)) = [[(0, 0)]] ∧ (s.pod 2 3).workers ≠ [] ∧ (s.pod 2 3).hasSet 0 0 = true
            ∧ s.anchorOf 2 0 0 = some 3 ∧ ((List.range 28).all fun n => n == 3 || !(s.pod 2 n).hasSet 0 0) = true
            ∧ (∀ kv ∈ s.convs, kv.2.deleting = false) ∧ ∀ kv ∈ s.pages, kv.2.shares ≠ 0) :=
  ⟨by decide, by decide, by rintro w (rfl | rfl) <;> decide, by decide, by decide⟩

/-- A query whose one page is done, in one region or in two; its deadline has just passed. -/
theorem test_hyp_QueriesEnd :
    (let s := workS .done true 0
     s.phase = .ready ∧ s.quiet 16 = false ∧ s.quiet 2 = false ∧ ((Map.find? s.reqs 0).any fun r =>
       r.status.isNone && r.kind == .query && r.scanned && !r.arrived.contains 2 && r.items == [item .done] && r.regions == [2]
         && r.deadline == some 1000000 && decide (1000000 ≤ s.time)) = true)
      ∧ ((Req.regions { Req.initial .query 77 hostSrc 0 (some 0) 16 [] with items := [item .done, { item .waiting with region := 3 }] }) = [2, 3]) :=
  ⟨by decide, by decide⟩

/-! ## APPEND, SEAL, ABORT and MERGE: the hypotheses of the statements are met -/

def MO : Nat := mkPage 0 0 900

/-- The node with a mask object of 2 segments. -/
def maskS : State := { nodeS with masks := [(MO, { part := 0, region := 0, len := 2, segs := [], writes := 0, slot := 16, deleted := false })] }

def lastMask : Bytes := appendBlk MO (256 + 512) 256 1 (List.replicate 32 0xAA)
def sealBlk (conv : Nat) : Bytes := toLE 8 88 ++ toLE 8 conv ++ zeros 48

/-- A token that fits in the open page; the last mask segment; a SEAL of an open page, and one with nothing to seal. -/
theorem test_hyp_AppendsAndSealsStart :
    (let a := AppendBlk.ofBlock oneToken
     Admits nodeS hostSrc opAppend 77 (hTenant H1) 2 0 0 (some H1) true 0 ∧ a.id = 77 ∧ a.handle = H1 ∧ AppendBlk.check1 oneToken = true ∧ a.mask = false
       ∧ a.creating = false ∧ nodeS.heldConv H1 = some conv1 ∧ conv1.readOnly = false ∧ nodeS.streamWaits H1 a.layer = false
       ∧ nodeS.resident conv1.profile = some (0, slotOf 1 0 3) ∧ a.layer < (Geo.ofImage (image 1 0 3)).layers
       ∧ oneToken.length = 64 + a.count * (Geo.ofImage (image 1 0 3)).channels * dataBytes a.dfmt ∧ a.at_ = 0 ∧ nodeS.stream? H1 a.layer = some st1
       ∧ st1.next % 256 ≠ 0 ∧ a.count = 1 ∧ st1.next % 256 + a.count ≤ 256 ∧ st1.next + a.count ≤ 2 ^ 24 ∧ nodeS.lossRefuses (some st1) 0 = false)
      ∧ (let a := AppendBlk.ofBlock lastMask
         Admits maskS hostSrc opAppend 77 (hTenant MO) 2 0 0 (some MO) true 0 ∧ a.handle = MO ∧ AppendBlk.check1 lastMask = true ∧ a.mask = true
           ∧ a.creating = false ∧ (Map.find? maskS.masks MO).isSome = true ∧ a.first / 8 + a.count * 32 ≤ 2 * 32 ∧ a.first % 256 = 0)
      ∧ (Admits nodeS hostSrc opSeal 88 (hTenant H1) 2 0 0 (some H1) true 0 ∧ SealBlk.check1 (sealBlk H1) = true
          ∧ (SealBlk.ofBlock (sealBlk H1)).conv = H1 ∧ (SealBlk.ofBlock (sealBlk H1)).all = false ∧ nodeS.sealPages H1 0 = [pg 6])
      ∧ ({ nodeS with streams := [] } : State).sealPages H1 0 = [] :=
  ⟨⟨admits_of (by decide) (by decide), by decide⟩, ⟨admits_of (by decide) (by decide), by decide⟩, ⟨admits_of (by decide) (by decide), by decide⟩, by decide⟩

/-- The node with an APPEND whose slots are written, its open page at its seal or not. -/
def writtenS (sealing : Bool) : State :=
  { nodeS with
    streams := Map.adjust nodeS.streams (streamKey H1 0) fun x => { x with mstate := 1 }
    pages := Map.adjust (Map.adjust nodeS.pages (pg 6) fun p => { p with sealing }) (pg 1) fun p => { p with tailBlocks := 1 }
    reqs := [(0, { Req.initial .append 77 hostSrc 0 (some 0) 16 oneToken with conv := H1, profile := 1, version := 1, firstSlot := st1.next })] }

/-- An ABORT of request 77, and one of a request that is not known. -/
def abortBlk (of : Nat) : Bytes := toLE 8 5 ++ toLE 8 of ++ zeros 48

theorem test_hyp_AppendsAndSealsEnd :
    (let s := writtenS false
     s.phase = .ready ∧ ((Map.find? s.reqs 0).any fun r => r.status.isNone && r.kind == .append && r.scanned && !r.gathered && !s.earlierAppend 0 r
         && decide (r.firstSlot / 256 = 5) && (s.appendPods r [r.firstSlot / 256]).isSome) = true
       ∧ ((s.stream? H1 0).any fun st => st.mstate != 2 && Map.find? st.entries 5 == some (pg 6)) = true
       ∧ (∀ kv ∈ s.convs, kv.2.deleting = false) ∧ ∀ kv ∈ s.pages, kv.2.shares ≠ 0)
      ∧ (let s := { writtenS true with reqs := [] }
         ((Map.find? s.pages (pg 6)).any fun p => p.state == .opened && p.sealing && !p.restoring && !p.hold && !s.unwritten p
           && (s.choosePod p.region (some p.part) p.profile (match s.resident p.profile with | some x => x.2.ver | none => p.version)
             (fun _ => true)).isSome && ((Map.find? s.convs p.conv).any fun c => !c.deleting)) = true)
      ∧ (let s := writtenS true
         ((Map.find? s.pages (pg 1)).any fun p => p.state != .opened && p.tailBlocks != 0 && p.holders == 0) = true
           ∧ (s.reqs.all fun kv => kv.2.items == []) = true)
      ∧ (Takes nodeS opAbort ∧ (abortBlk 77).length = 64 ∧ zerosAt (abortBlk 77) 16 48 = true
          ∧ ((workS .waiting true 0).reqs.map fun kv => (kv.1, kv.2.kind, kv.2.master, kv.2.id, kv.2.status)) = [(0, .query, 0, 77, none)]
          ∧ nodeS.reqs = [] ∧ nodeS.done = []) :=
  ⟨by decide, by decide, by decide, takes_of (by decide), by decide⟩

/-- A MERGE of two QUERYs, one for node 5 and one for this node (node 0). -/
def mergeBlk : Bytes :=
  toLE 8 55 ++ toLE 4 (2 + 128 + 1024 + 65536) ++ toLE 4 100 ++ toLE 2 10 ++ zeros 2 ++ toLE 2 1 ++ zeros 42
    ++ toLE 2 5 ++ zeros 2 ++ toLE 4 128 ++ toLE 4 256 ++ zeros 4 ++ toLE 2 6 ++ zeros 2 ++ toLE 4 384 ++ toLE 4 256 ++ zeros 4 ++ zeros 32
    ++ (toLE 8 101 ++ (queryBlk 0 256 256 0 0 H1).drop 8) ++ (toLE 8 102 ++ (queryBlk 0 256 256 0 0 H1).drop 8)

def mergerS : State := nodeS.setReg pgCmp 0x040 1

/-- A result header with this status. -/
def resultOf (status : Nat) : Bytes :=
  ResultHeader.bytes { id := 1, status, flags := 0, qtok := 1, heads := 1, dv := 32, eb := 144, attended := 1, omitted := 0, aux0 := 0, aux1 := 0 } ++ zeros 144

/-- An accepted MERGE whose contributions are in these states, the first with a result of this status. -/
def mergingS (a b status time : Nat) : State :=
  let c := contributionsOf mergeBlk
  { mergerS with
    time, nextReq := 1
    reqs := [(0, { Req.initial .merge 55 hostSrc 0 (some 0) 16 mergeBlk with
                   deadline := some 100000, mergeRegion := 0, mergePods := [0],
                   contribs := [{ c.getD 0 (.initial 0 false 0 0) with state := a, got := some (resultOf status) },
                                { c.getD 1 (.initial 0 false 0 0) with state := b }] })] }

theorem test_hyp_MergesRun :
    (let m := MergeBlk.ofBlock mergeBlk
     Takes mergerS opMerge ∧ mergeCheck1 2 mergeBlk = true ∧ mergerS.srcPart hostSrc = some 0 ∧ mergerS.partActive 0 = true
       ∧ mergerS.compCheck m.comp m.epoch none false = .pass false ∧ mergerS.role = 1 ∧ m.final = true ∧ (mergerS.resident m.profile).isSome = true
       ∧ mergerS.prof.deleting.contains m.profile = false ∧ mergerS.duplicate 0 m.id = false ∧ mergerS.entryFree (some 0) = true
       ∧ (mergerS.mergeFor 0 (mergeShares m.qtok 128 256)).isSome = true)
      ∧ (∀ time, time = 0 ∨ time = 90000 → let s := mergingS 0 0 0 time
          s.phase = .ready ∧ ((Map.find? s.reqs 0).any fun r => r.status.isNone && r.kind == .merge && r.deadline == some 100000
            && r.contribs.length == 2 && (r.contribs.all fun x => x.state == 0)
            && (decide (s.remaining 100000 < (MergeBlk.ofBlock r.blk).margin + 1) == decide (time = 90000))
            && ((r.contribs[0]?).any fun c => c.node == 5 && (s.partConn 0 c.node).isSome)) = true
            ∧ s.nodeId ≠ 5 ∧ Map.lowestFree s.pft.regions 1 < 65536)
      ∧ (∀ st, st = 0 ∨ st = 1 ∨ st = 12 → (ResultHeader.ofBlock (resultOf st)).status = st)
      ∧ (∀ b, b = 0 ∨ b = 2 → ((Map.find? (mergingS 1 b 0 0).reqs 0).any fun r => r.heads == 0
          && ((r.contribs[0]?).any fun c => c.state == 1 && c.got == some (resultOf 0)) && ((r.contribs[1]?).any fun c => c.state == b)) = true)
      ∧ (let h := ResultHeader.ofBlock (resultOf 0)
         (h.qtok, h.heads, h.dv) = (1, 1, 32) ∧ ∃ r, Map.find? (Map.adjust (mergingS 1 2 0 0).reqs 0 fun r => { r with tokens := 1, heads := 1, dv := 32 }) 0 = some r
           ∧ h.qtok = r.tokens ∧ h.heads = r.heads ∧ h.dv = r.dv) :=
  ⟨⟨takes_of (by decide), by decide +kernel⟩, by rintro t (rfl | rfl) <;> decide, by rintro t (rfl | rfl | rfl) <;> decide, by rintro t (rfl | rfl) <;> decide,
    by decide, _, rfl, by decide⟩

/-! ## The match engine and profiles: the hypotheses of the statements are met -/

def phash : Bytes := (List.range 21).map fun k => BitVec.ofNat 8 k
def keyOf (ptr : Nat) : KeyRec := { tenant := 0, kind := 0, profile := 1, layer := 0, ptr, phash }

/-- The place of that key in its bank, at slot 3. -/
def placeOf : Nat := bankOf (chashOf 0 1 phash) 0 1 * 1024 + 3

/-- A third conversation, with a stream at a page boundary. -/
def H3 : Nat := mkConv 0 0 3 1

/-- The node with that conversation and one directory entry, for page 1. -/
def dirS : State :=
  { nodeS with
    convs := Map.insert nodeS.convs H3 conv1
    streams := Map.insert nodeS.streams (streamKey H3 0) { st1 with next := 256, entries := [] }
    mex := { nodeS.mex with dir := [(placeOf, { layer := 0, kind := 0, chash := chashOf 0 1 phash, ptr := 1, part := 0, bad := false })]
                            keys := [(placeOf, keyOf 1)] } }

def lookupBlk (conv form attach first count sig : Nat) : Bytes :=
  toLE 8 71 ++ toLE 8 conv ++ [BitVec.ofNat 8 (form + 4 * attach), 0, 0, 0] ++ toLE 2 (if form = 0 then 0 else 1) ++ toLE 2 (if form = 0 then 0 else 4)
    ++ toLE 2 first ++ zeros 2 ++ toLE 2 count ++ zeros 2 ++ toLE 8 sig ++ zeros 24 ++ (if form = 0 then [] else phash ++ zeros 11)

def searchOf : Search := { part := 0, tenant := 0, profile := 1, layer := 0, kind := 0, phash, sigmask := 2 ^ 56 - 1, maxhits := 4 }

theorem admits_none {s : State} {src : Src} {op id tenant need comp epoch part : Nat} {held : Bool}
    (t : s.phase = .ready ∧ s.commandWaits op = false)
    (g : s.authorise src tenant need = some part ∧ s.keyed part = true ∧ s.compCheck comp epoch none held = .pass false
      ∧ s.entryFree (some part) = true ∧ s.duplicate (s.masterOf src) id = false) :
    Admits s src op id tenant need comp epoch none held part :=
  ⟨takes_of t, g.1, g.2.1, g.2.2.1, g.2.2.2, fun _ e => by cases e⟩

/-- Descriptors of three entries; a search that hits; an ATTACH of its one hit. -/
theorem test_hyp_LookupsAnswer :
    (search searchOf dirS).1.hits = [(placeOf, keyOf 1)]
      ∧ (Admits dirS hostSrc opLookup 71 (hTenant H1) 1 0 0 (some H1) true 0 ∧ (dirS.heldConv H1).isSome = true ∧ dirS.outside conv1 0 = false ∧ dirS.heldConv H1 = some conv1
          ∧ LookupBlk.check1 (lookupBlk H1 0 0 0 3 0) = true ∧ (LookupBlk.ofBlock (lookupBlk H1 0 0 0 3 0)).form = 0)
      ∧ (let l := LookupBlk.ofBlock (lookupBlk 0 1 0 0 0 (2 ^ 56 - 1))
         Takes dirS opLookup ∧ LookupBlk.check1 (lookupBlk 0 1 0 0 0 (2 ^ 56 - 1)) = true ∧ l.form = 1 ∧ l.attach = false ∧ dirS.searchPart hostSrc l = some 0
           ∧ dirS.partActive 0 = true ∧ 1 ≤ dirS.right 0 (partTarget 0) ∧ dirS.keyed 0 = true ∧ dirS.compCheck l.comp l.epoch none false = .pass false
           ∧ dirS.sweepOk hostSrc l = true ∧ dirS.entryFree (some 0) = true ∧ dirS.duplicate 0 l.id = false)
      ∧ (let l := LookupBlk.ofBlock (lookupBlk H3 1 1 0 0 (2 ^ 56 - 1))
         Admits dirS hostSrc opLookup 71 (hTenant H3) 2 0 0 (some H3) true 0 ∧ LookupBlk.check1 (lookupBlk H3 1 1 0 0 (2 ^ 56 - 1)) = true ∧ l.form = 1
           ∧ l.attach = true ∧ l.sigmask % 2 ^ 56 = 2 ^ 56 - 1 ∧ isCreate l.conv = false ∧ dirS.heldConv H3 = some conv1 ∧ conv1.readOnly = false
           ∧ conv1.profile = l.profile ∧ dirS.attachPart hostSrc l 0 = true)
      ∧ (let t := (search searchOf dirS).2
         ((t.pageBySerial 0 1).any fun x => (t.stream? H3 0).any fun st => (t.resident 1).any fun y =>
            astatOf x.2 (Geo.ofImage y.2.img) 0 st == 0 && st.retained && st.mstate == 2) = true)
      ∧ (let s := { dirS with streams := Map.mapVals dirS.streams fun _ st => { st with retained := false } }
         ∀ kv ∈ s.streams, kv.2.retained = false)
      ∧ (let l := LookupBlk.ofBlock (lookupBlk 0 1 1 0 0 (2 ^ 56 - 1))
         let s := { dirS with mex := { dirS.mex with dir := [], keys := [] } }
         Admits s hostSrc opLookup 71 (hTenant 0) 2 0 0 none false 0 ∧ (s.heldConv 0).isSome = false
           ∧ LookupBlk.check1 (lookupBlk 0 1 1 0 0 (2 ^ 56 - 1)) = true ∧ l.form = 1 ∧ l.attach = true ∧ l.conv = 0 ∧ s.attachPart hostSrc l 0 = true
           ∧ l.sigmask % 2 ^ 56 = 2 ^ 56 - 1 ∧ isCreate l.conv = true ∧ s.role = 0 ∧ (s.resident l.profile).isSome = true
           ∧ s.prof.deleting.contains l.profile = false ∧ (s.freeSlot 0).isSome = true ∧ (search searchOf s).1.hits = []) :=
  ⟨by decide +kernel, ⟨admits_of (by decide) (by decide), by decide⟩, ⟨takes_of (by decide), by decide⟩,
    ⟨admits_of (by decide) (by decide), by decide⟩, by decide +kernel, by decide,
    admits_none (by decide) (by decide), by decide +kernel⟩

def objBlk (handle obj layer pos rep : Nat) (payload : Bytes) : Bytes :=
  toLE 8 60 ++ toLE 8 handle ++ [BitVec.ofNat 8 obj, BitVec.ofNat 8 layer, 0, 0] ++ toLE 4 pos ++ [BitVec.ofNat 8 rep] ++ zeros 39 ++ payload

def insBlk : Bytes := objBlk H1 0 0 0 0 (phash ++ zeros 11)

theorem test_hyp_ObjectsChange :
    (Admits nodeS hostSrc opInsert 60 (hTenant H1) 2 0 0 (some H1) true 0 ∧ objCheck true insBlk = true ∧ nodeS.heldConv H1 = some conv1
        ∧ conv1.readOnly = false ∧ nodeS.outside conv1 0 = false ∧ (ObjBlk.ofBlock insBlk).obj = 0
        ∧ ((nodeS.pageAt H1 0 0).any fun x => x.1 == pg 1 && x.2.state == .sealed && decide (x.2.shares < 0xFFFFFF)) = true)
      ∧ (let k := blockKey insBlk (hTenant H1) 1 (pg 1 % 2 ^ 40)
         nodeS.keyEntry 0 k = none ∧ (nodeS.bankSlot (bankOf (chashOf k.tenant k.profile k.phash) k.tenant k.profile)).isSome = true)
      ∧ (objCheck true (objBlk H1 2 0 0 0 [5]) = true ∧ (ObjBlk.ofBlock (objBlk H1 2 0 0 0 [5])).obj = 2)
      ∧ (objCheck false (objBlk H1 1 0 0 0 []) = true ∧ (ObjBlk.ofBlock (objBlk H1 1 0 0 0 [])).obj = 1
          ∧ Admits nodeS hostSrc opDelete 60 (hTenant H1) 2 0 0 (some H1) true 0)
      ∧ (objCheck false (objBlk MO 2 0 0 0 []) = true ∧ (ObjBlk.ofBlock (objBlk MO 2 0 0 0 [])).obj = 2
          ∧ Admits maskS hostSrc opDelete 60 (hTenant MO) 2 0 0 (some MO) true 0 ∧ (Map.find? maskS.masks MO).isSome = true)
      ∧ (let b := objBlk 1 3 0 0 0 (phash ++ zeros 11)
         objCheck false b = true ∧ (ObjBlk.ofBlock b).obj = 3 ∧ dirS.authorise hostSrc (hTenant (ObjBlk.ofBlock b).handle) 2 = some 0
           ∧ dirS.compCheck 0 0 none false = .pass false ∧ (dirS.keyEntry 0 (blockKey b (hTenant 1) 1 0)).isSome = true) :=
  ⟨⟨admits_of (by decide) (by decide), by decide⟩, by decide +kernel, by decide, ⟨by decide, by decide, admits_of (by decide) (by decide)⟩,
    ⟨by decide, by decide, admits_of (by decide) (by decide), by decide⟩, by decide +kernel⟩

/-- A rule block: its position and REPLACE. -/
def ruleBlk (pos rep : Nat) : Bytes := objBlk 0 4 0 pos rep (toLE 16 5 ++ toLE 16 7 ++ toLE 4 3)

/-- One rule, and a shift of a second one under way or none. -/
def ruleS (shifting : Bool) (op : Nat) : State :=
  { nodeS with
    reqs := if shifting then [(0, Req.initial .rule 60 hostSrc 0 none 16 (ruleBlk 1 0))] else []
    mex := { nodeS.mex with rules := [ruleOf (ruleBlk 0 0)], changes := if shifting then [{ req := 0, op, pos := 0, rule := ruleOf (ruleBlk 1 0) }] else [] } }

theorem admitsAdmin_of {s : State} {src : Src} {op page id comp epoch : Nat} (t : s.phase = .ready ∧ s.commandWaits op = false)
    (g : s.secondary src = false ∧ 3 ≤ s.right (s.masterOf src) page ∧ s.compCheck comp epoch none false = .pass false
      ∧ s.entryFree (s.srcPart src) = true ∧ s.duplicate (s.masterOf src) id = false) : AdmitsAdmin s src op page id comp epoch :=
  ⟨takes_of t, g.1, g.2.1, g.2.2.1, g.2.2.2⟩

/-- An INSERT at the end, a REPLACE and a DELETE of the last rule, and the ends of the shifts of both kinds. -/
theorem test_hyp_RulesChange :
    (∀ op, op = opInsert ∨ op = opDelete → AdmitsAdmin (ruleS false 0) hostSrc op pgMex 60 0 0)
      ∧ ((ruleS false 0).mex.changes = [] ∧ (ruleS false 0).mex.rules.length = 1)
      ∧ (∀ x, x = (1, 0) ∨ x = (0, 1) → let b := ruleBlk x.1 x.2
          (ObjBlk.ofBlock b).obj = 4 ∧ objCheck true b = true ∧ actionOk (ruleOf b).action = true ∧ (ruleOf b).care < 2 ^ 53 ∧ (ObjBlk.ofBlock b).pos = x.1
            ∧ (ObjBlk.ofBlock b).replace = (x.2 == 1))
      ∧ (objCheck false (objBlk 0 4 0 0 0 []) = true ∧ (ObjBlk.ofBlock (objBlk 0 4 0 0 0 [])).pos = 0)
      ∧ (∀ op, op = 0 ∨ op = 2 → (ruleS true op).phase = .ready
          ∧ ((ruleS true op).mex.changes.map fun c => (c.op, (Map.find? (ruleS true op).reqs c.req).map (·.status))) = [(op, some none)]) :=
  ⟨by rintro o (rfl | rfl) <;> exact admitsAdmin_of (by decide) (by decide), by decide, by rintro o (rfl | rfl) <;> decide, by decide,
    by rintro o (rfl | rfl) <;> decide⟩

/-- A load of profile 1 in slot 7 at its end, with a manifest asked for or not. -/
def loadingS (need : Nat) : State :=
  { nodeS with
    nextReq := 5
    reqs := [(4, Req.initial .profile 60 hostSrc 0 none 16 [])]
    prof := { nodeS.prof with loading := some (4, 7), slots := Map.insert nodeS.prof.slots 7 { slotOf 1 0 3 with st := 1 } } }.setReg pgProf 0x058 need

theorem test_hyp_ProfilesTurnOver :
    (∀ need, need = 0 ∨ need = 1 → (loadingS need).phase = .ready ∧ (loadingS need).prof.loading = some (4, 7) ∧ (Map.find? (loadingS need).reqs 4).isSome = true
        ∧ ((Map.find? (loadingS need).prof.slots 7).any fun x => (loadingS need).check9 x == decide (need = 0)) = true)
      ∧ (let s := { nodeS with prof := { nodeS.prof with slots := Map.adjust nodeS.prof.slots 1 fun x => { x with st := 3 } } }
         ((Map.find? s.prof.slots 1).any fun x => x.st == 3 && s.boundTo x.id x.ver == 0) = true ∧ s.prof.deleting = []
           ∧ ∀ kv ∈ ({ s with prof := { s.prof with deleting := [2] } } : State).profSlots 2, s.boundTo kv.2.id kv.2.ver = 0)
      ∧ (let b := objBlk 2 5 0 0 0 []
         AdmitsAdmin nodeS hostSrc opDelete pgProf 60 0 0 ∧ (ObjBlk.ofBlock b).obj = 5 ∧ objCheck false b = true ∧ nodeS.prof.loading = none
           ∧ nodeS.prof.deleting.contains 2 = false ∧ nodeS.profSlots 2 ≠ [] ∧ ∀ kv ∈ nodeS.convs, kv.2.profile ≠ 2) :=
  ⟨by rintro o (rfl | rfl) <;> decide, by decide, ⟨admitsAdmin_of (by decide) (by decide), by decide⟩⟩

/-- An image that passes checks 1 to 8, and one that fails the first. -/
theorem test_hyp_ProfilesTurnOver_load :
    (let s := { nodeS with prof := { nodeS.prof with storeGib := 1 } }
     s.phase = .ready ∧ s.loadCheck hostSrc (image 3 0 3) = none) ∧ nodeS.loadCheck hostSrc [] = some (.invalidMode, 1) := by decide

/-! ## Worked examples of the spec: the expected values stand in its text -/

/-- An FP32 input element. -/
def fx (bits : Nat) : Fl := decodeIeee spec32 bits

/-- The block of Table 4-3: 3.7, −0.3, 0.0005 and zeros. -/
def exampleBlock : List Fl := [fx 0x406CCCCD, fx 0xBE99999A, fx 0x3A03126F] ++ List.replicate 29 (.fin false .zero)

/-- Table 4-3, code 0x3: scale byte 0x79, elements 0x77, 0xDA, 0x10. -/
theorem test_block_lernak : (fun r => (r.1.take 3, r.2)) (quantBlockMx 0x3 0 .zero exampleBlock fun _ => none) = ([0x77, 0xDA, 0x10], 0x79) := by decide

/-- Table 4-3, code 0xA: scale byte 0x78, elements 0x7E, 0xE2, 0x18. -/
theorem test_block_ocp : (fun r => (r.1.take 3, r.2)) (quantBlockMx 0xA 0 .zero exampleBlock fun _ => none) = ([0x7E, 0xE2, 0x18], 0x78) := by decide

/-- Chapter 5's example: the tail stores 0.1 as 0.10009765625, the BF16 0x3DCD. -/
theorem test_tail_bf16 : bf16Tail (fx 0x3DCCCCCD) = 0x3DCD := by decide

/-- Chapter 5's example: s is 0x220D and z is 0.75 (0x3A00). -/
theorem test_pq8_parameters : sealChannel .zero [fx 0x40100000, fx 0xBF400000, fx 0x3DCD0000] = (0x220D, 0x3A00) := by decide

/-- Chapter 5's example: 127, −127 and −55. -/
theorem test_pq8_elements : ([0x40100000, 0xBF400000, 0x3DCD0000].map fun x => sealPq8 .zero 0x220D 0x3A00 none (fx x)) = [127, 256 - 127, 256 - 55] := by decide

/-- Chapter 5's example: the range −0.7509 to 2.2509 widens to −0.875 and 2.5 in E5M2. -/
theorem test_sketch_outward : (sketchRound false ⟨-12302, -14⟩, sketchRound true ⟨36878, -14⟩) = (0xBB, 0x41) := by decide

/-- The latent of 512 and 64 channels of the examples. -/
def l576 : Geo := { Geo.ofImage [] with cc := 512, cp := 64, h := 32, dk := 128, dv := 128, layers := 60 }

/-- 152,064 stored bytes, 38 blocks, 154,920 bytes in NAND, and a tail of 294,912 bytes (chapters 1 and 2). -/
theorem test_page_sizes : (storedBytes l576 3, blocksOf (storedBytes l576 3), nandBytes l576 3, tailBytes l576) = (152064, 38, 154920, 294912) := by decide

/-- Chapter 5's example: PQ8 of 288 channels takes 74,880 bytes in 19 blocks, its tail 147,456. -/
theorem test_page_sizes_pq8 : (fun g : Geo => (storedBytes g 0xF, blocksOf (storedBytes g 0xF), tailBytes g)) { l576 with cc := 256, cp := 32 }
    = (74880, 19, 147456) := by decide

/-- Chapter 2's example: 16 TiB raw at 7 % over-provisioning leave 16,356,438,048,768 bytes. -/
theorem test_flash_capacity :
    { Flash.empty with ces := 8, luns := 4, blocksPerLun := 2048, pagesPerBlock := 1024, opPct := 7 }.capacity * unitSize = 16356438048768 := by decide

/-- Chapter 1's example: region 9 lies on pages 0x1FC to 0x217, 0x309 and stack 4's 0x324. -/
theorem test_region_pages : (pgPod 9 0, pgPod 9 27, pgRegn 9, pgHbm 4) = (0x1FC, 0x217, 0x309, 0x324) := by decide

/-- Chapter 11's example: at 800 Gb/s with MTU 8,192 and one tag the largest frame is 8,302 bytes and the guard band 88 ns. -/
theorem test_guard_band : (fun s : State => (s.largestFrame 0, s.guardBand 0))
    ((rdy.setField pgPft 0x040 2 2 3).setField (pgEth 0) 0x058 12 1 1) = (8302, 88) := by decide

/-- Table 10-5, step 2: 5003 above NEXT 5000 is SACK bit 2. -/
theorem test_sack_bit : { newConn .opened true 5 (zeros 16) 0 9 1 5 100 0 with rxNext := 5000, rxGot := [5003] }.sackBits = 4 := by decide

/-- Table 19-5, step 2: at 581 W under P480 the bucket goes to −0.038 J, and the position to 1. -/
theorem test_power_step_down :
    after (exec (.powerDecision 5810) { rdy with time := 1000000, pwr := { rdy.pwr with bucket := 630 } })
      (fun t => (decide (t.pwr.bucket = -380) && t.position == 1)) = true := by decide

/-- Table 18-10, steps 1 to 3: with the store at 8 GiB, partition 0 of 687 units gives up 40. -/
def stepThree : State :=
  ({ rdy with parts := [(0, Partition.created 1 687)], prof := { rdy.prof with storeGib := 8 } }).setReg pgGlb 0x080 0x02870000
theorem test_resize_frees_units : after (exec (.partResize 0) stepThree) (fun t => t.freeUnits == 40) = true := by decide

/-- Table 18-10, step 5: CREATE of TENANT 0x2C4 with 40 units; STATUS OK, INDEX 1, FREE_UNITS 0. -/
def stepFive : State :=
  ({ rdy with parts := [(0, Partition.created 1 647)], prof := { rdy.prof with storeGib := 8 } }).setReg pgGlb 0x080 0x002802C4
theorem test_create_takes_units :
    after (exec (.partCreate 0) stepFive) (fun t => t.freeUnits == 0 && (t.part? 1).any fun p => p.tenant == 0x2C4 && p.units == 40) = true := by decide

/-- Table 18-10, step 14: pods 20 to 25, slots 48 to 63 and 32 entries of region 9. -/
def stepTwelve : State :=
  let s := { rdy with parts := [(0, Partition.created 1 647), (1, { Partition.created 0x2C4 40 with strict := true, rsv := 500 })] }
  (((s.setReg (pgRegn 9) 0x060 0x03F00000).setReg (pgRegn 9) 0x064 0x00100030).setReg (pgRegn 9) 0x068 0x20).setSel 0 (pgRegn 9) 0x050 1
theorem test_reservation_set :
    after (exec (.rsvSet 0 9) stepTwelve) (fun t => (t.region 9).rsv == [(1, ⟨0x3F00000, 48, 16, 32⟩)]) = true := by decide

/-- The change log's example of chapter 18: RTO_US goes from 32 to 64 at 12 s of boot 41. -/
theorem test_log_record :
    after (exec (.registerWrite 0 (pgPft * 4096 + 0x048) 0x00070040 15)
        { rdy.setReg pgPft 0x048 0x00070020 with time := 12000000000, boot := { rdy.boot with count := 41 } })
      (fun t => t.log.recs.any fun r => r.boot == 41 && r.master == 0 && r.kind == 0 && r.target == 0x020 && r.time == 12000000000
        && r.offset == 0x048 && r.old == 0x00070020 && r.new == 0x00070040) = true := by decide

end Sys2Proof.Tests
end

/-! PROOFS. Access rights and their digest (R317, R319, R320, R329). -/
namespace Sys2Proof.Machine
open Sys2Proof

/-! ## Rights -/

@[simp] theorem State.right_setCause (page bit : Nat) (s : State) (m tg : Nat) : (setCause page bit s).right m tg = s.right m tg := by
  simp [State.right]

/-- A master below 1,024 has its own key of the rights table on each target. -/
theorem rightKey_inj {m m' tg tg' : Nat} (h : m < 1024) (h' : m' < 1024) :
    tg' * 1024 + m' = tg * 1024 + m ↔ m' = m ∧ tg' = tg := by omega

theorem State.right_setRight (s : State) (r : Nat) {m m' tg tg' : Nat} (h : m < 1024) (h' : m' < 1024) :
    (s.setRight m tg r).right m' tg' = if m' = m ∧ tg' = tg then r else s.right m' tg' := by
  unfold State.setRight State.right
  split
  · rename_i e
    obtain ⟨rfl, rfl⟩ := e
    exact Map.getD_put_same _ _ _ _
  · rename_i e
    exact Map.getD_put_ne _ _ _ _ (mt (rightKey_inj h h').1 e)

/-! ## One master's change -/

@[simp] theorem logRec_digestDue (master kind target offset old new : Nat) (s : State) :
    (logRec master kind target offset old new s).log.digestDue = s.log.digestDue := by
  unfold logRec appendRec
  simp only
  split <;> simp only [setCause_log, bumpMeas, State.setReg_log] <;> split
  · split <;> rfl
  · rfl
  · split <;> rfl
  · rfl

/-- A change of a right to what it is changes nothing. -/
theorem changeRight_same {by_ target m r : Nat} {s : State} (h : s.right m target = r) : changeRight by_ target m r s = s := if_pos h

theorem changeRight_right (by_ target r : Nat) (s : State) {m m' : Nat} (tg : Nat) (h : m < 1024) (h' : m' < 1024) :
    (changeRight by_ target m r s).right m' tg = if m' = m ∧ tg = target then r else s.right m' tg := by
  unfold changeRight
  split
  · rename_i e
    split
    · rename_i c; rw [c.1, c.2, e]
    · rfl
  · rw [← State.right_setRight s r h h']
    simp [State.right]

/-- A change of a right changes nothing, or makes the digest due. -/
theorem changeRight_due (by_ target m r : Nat) (s : State) :
    changeRight by_ target m r s = s ∨ (changeRight by_ target m r s).log.digestDue = true := by
  unfold changeRight
  split
  · exact .inl rfl
  · exact .inr (by simp)

/-- What only reports goes on doing so whatever the rights are. -/
theorem Reports.withRights {s t : State} (h : Reports s t) (r : Map Nat) : Reports { s with rights := r } { t with rights := r } :=
  ⟨congrArg (fun u => { u with rights := r }) h.still, h.regs, h.cnt, h.conns, h.reqs, h.out⟩

theorem reports_changeRight (by_ target m r : Nat) (s : State) :
    Reports { s with rights := (changeRight by_ target m r s).rights } (changeRight by_ target m r s) := by
  unfold changeRight
  split
  · exact Reports.refl s
  · refine Reports.trans ?_ (reports_logRec _ _ _ _ _ _ _)
    rw [logRec_rights]
    exact ⟨rfl, fun _ _ _ _ => rfl, fun _ _ _ _ => rfl, fun _ => rfl, fun _ => rfl, List.prefix_refl _⟩

/-! ## The masters of a write of ACC_RIGHT (R329) -/

/-- The changes of one right for a list of masters, one after the other. -/
def changeRights (by_ target r : Nat) (ms : List Nat) (s : State) : State :=
  ms.foldl (fun t m => changeRight by_ target m r t) s

@[simp] theorem changeRights_nil (by_ target r : Nat) (s : State) : changeRights by_ target r [] s = s := rfl

@[simp] theorem changeRights_cons (by_ target r m : Nat) (ms : List Nat) (s : State) :
    changeRights by_ target r (m :: ms) s = changeRights by_ target r ms (changeRight by_ target m r s) := rfl

theorem changeRights_right (by_ target r : Nat) {ms : List Nat} (hms : ∀ k ∈ ms, k < 1024) :
    ∀ (s : State) (m tg : Nat), m < 1024 →
      (changeRights by_ target r ms s).right m tg = if m ∈ ms ∧ tg = target then r else s.right m tg := by
  induction ms with
  | nil => intro s m tg _; simp
  | cons k ms ih =>
    intro s m tg hm
    obtain ⟨hk, hms⟩ := List.forall_mem_cons.1 hms
    rw [changeRights_cons, ih hms _ m tg hm, changeRight_right _ _ _ _ _ hk hm]
    by_cases h1 : m ∈ ms <;> by_cases h2 : tg = target <;> simp [h1, h2]

theorem changeRights_keeps_due (by_ target r : Nat) (ms : List Nat) :
    ∀ s : State, s.log.digestDue = true → (changeRights by_ target r ms s).log.digestDue = true := by
  induction ms with
  | nil => intro s h; exact h
  | cons k ms ih =>
    intro s h
    refine ih _ ?_
    rcases changeRight_due by_ target k r s with e | e
    · exact (congrArg (fun t => t.log.digestDue) e).trans h
    · exact e

/-- The changes change nothing, or make the digest due. -/
theorem changeRights_due (by_ target r : Nat) (ms : List Nat) :
    ∀ s : State, changeRights by_ target r ms s = s ∨ (changeRights by_ target r ms s).log.digestDue = true := by
  induction ms with
  | nil => intro s; exact .inl rfl
  | cons k ms ih =>
    intro s
    rw [changeRights_cons]
    rcases changeRight_due by_ target k r s with e | e
    · rw [e]; exact ih s
    · exact .inr (changeRights_keeps_due _ _ _ _ _ e)

theorem reports_changeRights (by_ target r : Nat) (ms : List Nat) :
    ∀ s : State, Reports { s with rights := (changeRights by_ target r ms s).rights } (changeRights by_ target r ms s) := by
  induction ms with
  | nil => intro s; exact Reports.refl s
  | cons k ms ih => intro s; exact ((reports_changeRight by_ target k r s).withRights _).trans (ih _)

/-- The masters from FIRST to LAST. -/
def mastersFrom (first last : Nat) : List Nat := (List.range (last + 1 - first)).map (· + first)

theorem mem_mastersFrom {first last m : Nat} : m ∈ mastersFrom first last ↔ first ≤ m ∧ m ≤ last := by
  simp only [mastersFrom, List.mem_map, List.mem_range]
  constructor
  · rintro ⟨k, hk, rfl⟩; omega
  · intro h; exact ⟨m - first, by omega, by omega⟩

section
variable {s : State} {master value target first last : Nat} (htarget : s.sel master pgAcc 0x040 % 2048 = target)
  (hfirst : bitsOf (s.sel master pgAcc 0x044) 0 10 = first) (hlast : max first (bitsOf (s.sel master pgAcc 0x044) 16 10) = last)
include htarget hfirst hlast

/-- A write of ACC_RIGHT makes the changes, and then at most raises the page's cause. -/
theorem setRights_eq :
    setRights master value s = changeRights master target (value % 4) (mastersFrom first last) s
      ∨ setRights master value s = setCause pgAcc 0 (changeRights master target (value % 4) (mastersFrom first last) s) := by
  subst htarget hfirst hlast
  unfold setRights
  simp only
  split
  · exact .inr rfl
  · exact .inl rfl

/-- A write of ACC_RIGHT changes the named masters' rights on the target alone, and otherwise only reports. -/
theorem setRights_changes :
    (∀ m, m < 1024 → (setRights master value s).right m target = if first ≤ m ∧ m ≤ last then value % 4 else s.right m target)
      ∧ (∀ m tg, m < 1024 → tg ≠ target → (setRights master value s).right m tg = s.right m tg)
      ∧ ((setRights master value s).rights ≠ s.rights → (setRights master value s).log.digestDue = true)
      ∧ Reports { s with rights := (setRights master value s).rights } (setRights master value s) := by
  have hms : ∀ k ∈ mastersFrom first last, k < 1024 := fun k hk => by
    have hle := (mem_mastersFrom.1 hk).2
    subst hlast hfirst
    unfold bitsOf at hle
    omega
  have hset := setRights_eq (value := value) htarget hfirst hlast
  have hmem := changeRights_right master target (value % 4) hms s
  have hdue := changeRights_due master target (value % 4) (mastersFrom first last) s
  have hrep := reports_changeRights master target (value % 4) (mastersFrom first last) s
  generalize changeRights master target (value % 4) (mastersFrom first last) s = u at *
  have hright (m : Nat) (hm : m < 1024) : u.right m target = if first ≤ m ∧ m ≤ last then value % 4 else s.right m target := by
    rw [hmem m target hm]
    simp only [mem_mastersFrom, and_true]
  have hother (m tg : Nat) (hm : m < 1024) (ht : tg ≠ target) : u.right m tg = s.right m tg :=
    (hmem m tg hm).trans (if_neg fun c => ht c.2)
  have hnew (hne : u.rights ≠ s.rights) : u.log.digestDue = true := hdue.resolve_left fun e => hne (congrArg State.rights e)
  rcases hset with e | e <;> rw [e]
  · exact ⟨hright, hother, hnew, hrep⟩
  · simp only [State.right_setCause, setCause_rights, setCause_log]
    exact ⟨hright, hother, hnew, hrep.trans (reports_setCause _ _ _)⟩

end

theorem exec_accRight {s : State} {master : Nat} (value : W32) (h : MayWrite s master pgAcc 0x048) :
    exec (.accRight master value) s = .next (setRights master value.toNat s) := by
  show Host.Outcome.next (writeTo master pgAcc 0x048 value s) = _
  rw [writeTo_taken value h (by decide) (by decide) (by decide)]
  rfl

/-! ## The access digest (R320) -/

/-- Four numbers of two bits stand side by side in a byte. -/
theorem bitsOf_fourInByte {r : Nat → Nat} (h : ∀ k, r k < 4) {j : Nat} (hj : j < 4) :
    bitsOf (BitVec.ofNat 8 (r 0 + 4 * r 1 + 16 * r 2 + 64 * r 3)).toNat (2 * j) 2 = r j := by
  have h0 := h 0
  have h1 := h 1
  have h2 := h 2
  have h3 := h 3
  have hlt : r 0 + 4 * r 1 + 16 * r 2 + 64 * r 3 < 2 ^ 8 := by omega
  rw [BitVec.toNat_ofNat, Nat.mod_eq_of_lt hlt]
  obtain rfl | rfl | rfl | rfl : j = 0 ∨ j = 1 ∨ j = 2 ∨ j = 3 := by omega
  all_goals
    simp only [bitsOf, Nat.reduceMul, Nat.reducePow]
    omega

/-- Each two bits of a table's byte are one master's right. -/
theorem tableByte_bits (s : State) (target m : Nat) (h : ∀ k, s.right k target < 4) :
    bitsOf (s.tableByte target (m / 4)).toNat (2 * (m % 4)) 2 = s.right m target := by
  have hbits := bitsOf_fourInByte (r := fun k => s.right (4 * (m / 4) + k) target) (fun k => h _) (Nat.mod_lt m (by decide : 0 < 4))
  rwa [Nat.div_add_mod] at hbits

/-- ACC_STAT shows DIGEST_VALID. -/
theorem readReg_accStat (s : State) (m : Nat) (hr : 1 ≤ s.right m pgAcc) (hp : s.pageReady pgAcc = true) (ho : s.offered pgAcc = true) :
    s.readReg m pgAcc 0x04C = bit (!s.log.digestDue) := by
  have hnow : s.registerNow m pgAcc 0x04C = bit (!s.log.digestDue) % 2 ^ 32 := rfl
  unfold State.readReg
  simp only [ho, hp, hnow, Nat.not_lt.2 hr]
  cases s.log.digestDue <;> rfl

theorem exec_accDigestReady {s : State} (h : s.phase = .ready) (hd : s.log.digestDue = true) :
    exec .accDigestReady s = .next { s with log := { s.log with digestDue := false, digest := some s.accessDigest } } := by
  show Host.Outcome.next (whenReady accDigestReady s) = _
  rw [whenReady, if_pos h, accDigestReady, if_pos hd]

/-- Settles O11: the changes run over the masters from FIRST to LAST, and each one that changes a right makes the digest due. -/
theorem accessChanges : Obligations.AccessChanges := by
  refine ⟨fun s master value h => ⟨_, exec_accRight value h, setRights_changes rfl rfl rfl⟩,
    fun s target m _ h => tableByte_bits s target m h, fun _ => rfl, fun s m hr hp ho => ?_, fun _ => exec_accDigestReady⟩
  rw [readReg_accStat s m hr hp ho]
  cases s.log.digestDue <;> decide

end Sys2Proof.Machine

/-! PROOFS. The LOG page: MARK records (R327) and the selected record (R330). -/
namespace Sys2Proof.Machine
open Sys2Proof

/-! ## Setting a register to what it holds -/

/-- Two names of one place in the register file that reset alike read alike. -/
theorem State.reg_congr (s : State) {page off win page' off' win' : Nat} (hk : regKey page' off' win' = regKey page off win)
    (hr : regReset page' off' win' = regReset page off win) : s.reg page' off' win' = s.reg page off win := by
  unfold State.reg
  rw [hk, hr]

/-- Below the HQ pages every page is its own home. -/
theorem homePage_of_lt {page off : Nat} (h : homePage page off < 0x010) : homePage page off = page := by
  refine if_neg fun hq => ?_
  rw [homePage, if_pos hq] at h
  unfold hqHome at h
  repeat' split at h
  all_goals omega

/-- LOG_MARK_HI resets to 0 under every name of its place. -/
theorem regReset_of_key_markHi {page off win : Nat} (h : regKey page off win = regKey pgLog 0x06C 0) : regReset page off win = 0 := by
  have hkey : homePage page off * 0x1000 + off + 0x4000000 * win = 0x206C := h
  have hhome : homePage page off = page := homePage_of_lt (by omega)
  rw [hhome] at hkey
  obtain rfl : win = 0 := by omega
  obtain ⟨rfl, rfl⟩ | ⟨rfl, rfl⟩ | ⟨rfl, rfl⟩ : (page = 0 ∧ off = 0x206C) ∨ (page = 1 ∧ off = 0x106C) ∨ (page = 2 ∧ off = 0x06C) := by
    omega
  all_goals decide

theorem reports_markHi_kept {s : State} {v : Nat} (h : s.reg pgLog 0x06C = v) : Reports (s.setReg pgLog 0x06C v) s := by
  refine ⟨rfl, fun page off win _ => ?_, fun _ _ _ _ => rfl, fun _ => rfl, fun _ => rfl, List.prefix_refl _⟩
  by_cases hk : regKey page off win = regKey pgLog 0x06C 0
  · have hr : regReset page off win = regReset pgLog 0x06C 0 := regReset_of_key_markHi hk
    rw [State.reg_congr _ hk hr, State.reg_congr _ hk hr, State.reg_setReg_same, ← h, Nat.mod_eq_of_lt (s.reg_lt _ _ _)]
  · exact (State.reg_setReg_ne _ _ _ _ _ _ _ _ hk).symm

/-! ## What a logged write leaves -/

@[simp] theorem regRecord_log (master page off old new sel : Nat) (s : State) :
    (regRecord master page off old new sel s).log = (logRec master 0 page off (old + sel * 2 ^ 32) (new + sel * 2 ^ 32) s).log := rfl

/-- A REGISTER record leaves every register beyond the page headers but INT_ARM, the message counter and the measurement generation. -/
theorem regRecord_reg (master p o old new sel : Nat) (s : State) (page off win : Nat) (h0 : off < 0x1000) (hbody : 0x040 ≤ off)
    (h1 : off ≠ 0x044) (h2 : off ≠ 0x050) (h3 : off ≠ 0x058) :
    (regRecord master p o old new sel s).reg page off win = s.reg page off win := by
  unfold regRecord
  simp only
  rw [State.reg_setReg_ne _ _ _ _ _ _ _ _ (regKey_ne_off (by decide) h0 (by omega)),
    State.reg_setReg_ne _ _ _ _ _ _ _ _ (regKey_ne_off (by decide) h0 (by omega)),
    logRec_reg _ _ _ _ _ _ _ _ _ _ h0 (by omega) h1 h2 h3]

/-- A write of a register to what it holds is none. -/
theorem commitReg_same {master page off win sel v : Nat} {s : State} (h : s.reg page off win = v) :
    commitReg master page off win sel v s = s := if_pos h

theorem commitReg_changed {master page off win sel v : Nat} {s : State} (h : s.reg page off win ≠ v) :
    commitReg master page off win sel v s = regRecord master page off (s.reg page off win) v sel (s.setReg page off v win) := if_neg h

/-! ## LOG_MARK (R327) -/

theorem exec_logMark {s : State} {master : Nat} (value : W32) (h : MayWrite s master pgLog 0x06C) :
    exec (.logMark master value) s = .next (markWrite master value.toNat s) := by
  show Host.Outcome.next (writeTo master pgLog 0x06C value s) = _
  rw [writeTo_taken value h (by decide) (by decide) (by decide)]
  rfl

/-- The MARK record of a write of LOG_MARK_HI (R324, R327). -/
def State.markRec (s : State) (master : Nat) : LogRec :=
  { seq := (s.log.seq + 1) % 2 ^ 64, boot := s.boot.count, master, kind := 4, target := 0, time := s.time, offset := 0, old := 0,
    new := s.reg pgLog 0x068 + s.reg pgLog 0x06C * 2 ^ 32, link := s.log.head.take 16 }

/-- The MARK record stands at the head of the ring, before the records there were. -/
theorem logMark_recs (master : Nat) (s : State) : (logMark master s).log.recs = (s.markRec master :: s.log.recs).take logRing := by
  unfold logMark
  rw [setCause_log, (logRec_log _ _ _ _ _ _ _).2]
  rfl

theorem logMark_head (master : Nat) (s : State) : (logMark master s).log.recs.head? = some (s.markRec master) := by
  rw [logMark_recs, List.head?_take, if_neg (by decide)]
  rfl

/-- The record that was the newest comes after the MARK record. -/
theorem logMark_second (master : Nat) (s : State) : (logMark master s).log.recs[1]? = s.log.recs.head? := by
  rw [logMark_recs, List.getElem?_take_of_lt (by decide), List.getElem?_cons_succ, List.head?_eq_getElem?]

theorem reports_logMark (master : Nat) (s : State) : Reports s (logMark master s) :=
  (reports_logRec _ _ _ _ _ _ _).trans (reports_setCause _ _ _)

/-- MARKED is set. -/
theorem logMark_marked (master : Nat) (s : State) : bitOf ((logMark master s).reg pgLog 0x010) 3 = true := setCause_bit _ _ _ (by decide)

/-- A write that leaves LOG_MARK_HI as it is appends the MARK record alone. -/
theorem markWrite_same {s : State} {master v : Nat} (h : s.reg pgLog 0x06C = v) : markWrite master v s = logMark master s := by
  rw [markWrite, commitReg_same h]

/-- The state in which a changed LOG_MARK_HI has been logged. -/
def State.markLogged (s : State) (master v : Nat) : State :=
  regRecord master pgLog 0x06C (s.reg pgLog 0x06C) v 0 (s.setReg pgLog 0x06C v)

theorem markWrite_changed {s : State} {master v : Nat} (h : s.reg pgLog 0x06C ≠ v) :
    markWrite master v s = logMark master (s.markLogged master v) := by
  rw [markWrite, commitReg_changed h]
  rfl

/-- The MARK record after the REGISTER record: its SEQ is the second one on, and its NEW holds the value written. -/
theorem markRec_markLogged (s : State) (master : Nat) (value : W32) :
    (s.markLogged master value.toNat).markRec master
      = { s.markRec master with seq := (s.log.seq + 2) % 2 ^ 64, new := s.reg pgLog 0x068 + value.toNat * 2 ^ 32,
                                link := (s.markLogged master value.toNat).log.head.take 16 } := by
  have hseq : ((s.markLogged master value.toNat).log.seq + 1) % 2 ^ 64 = (s.log.seq + 2) % 2 ^ 64 := by
    rw [State.markLogged, regRecord_log, (logRec_log _ _ _ _ _ _ _).1, State.setReg_log]
    omega
  have hlo : (s.markLogged master value.toNat).reg pgLog 0x068 = s.reg pgLog 0x068 := by
    rw [State.markLogged, regRecord_reg _ _ _ _ _ _ _ _ _ _ (by decide) (by decide) (by decide) (by decide) (by decide),
      State.reg_setReg_ne _ _ _ _ _ _ _ _ (by decide)]
  have hhi : (s.markLogged master value.toNat).reg pgLog 0x06C = value.toNat := by
    rw [State.markLogged, regRecord_reg _ _ _ _ _ _ _ _ _ _ (by decide) (by decide) (by decide) (by decide) (by decide),
      State.reg_setReg_same, Nat.mod_eq_of_lt value.isLt]
  have hboot : (s.markLogged master value.toNat).boot = s.boot := regRecord_boot _ _ _ _ _ _ _
  have htime : (s.markLogged master value.toNat).time = s.time := regRecord_time _ _ _ _ _ _ _
  simp only [State.markRec, hseq, hlo, hhi, hboot, htime]

/-- The REGISTER record of the change. -/
theorem markLogged_head (s : State) (master v : Nat) :
    (s.markLogged master v).log.recs.head?
      = some { seq := (s.log.seq + 1) % 2 ^ 64, boot := s.boot.count, master, kind := 0, target := pgLog, time := s.time,
               offset := 0x06C, old := s.reg pgLog 0x06C, new := v, link := s.log.head.take 16 } := by
  rw [State.markLogged, regRecord_log, (logRec_log _ _ _ _ _ _ _).2, List.head?_take, if_neg (by decide)]
  simp

/-! ## LOG_SEL (R330) -/

theorem State.sel_setSel_same (s : State) (master page off v d : Nat) : (s.setSel master page off v).sel master page off d = v % 2 ^ 32 := by
  simp [State.sel, State.setSel]

theorem State.sel_setSel_ne (s : State) (master page off off' v d : Nat) (h : off' ≠ off) :
    (s.setSel master page off v).sel master page off' d = s.sel master page off' d := by
  unfold State.sel State.setSel
  rw [Map.find?_insert_ne _ _ (by omega)]

/-- Every bit of LOG_SEL_LO is writable, locked or not. -/
theorem writable_selLo (s : State) : s.writable pgLog 0x050 = 0xFFFFFFFF := by
  unfold State.writable
  cases s.locked? pgLog <;> rfl

theorem exec_logSel {s : State} {master : Nat} (value : W32) (h : MayWrite s master pgLog 0x050) :
    exec (.logSel master value) s = .next (logSelect master (s.setSel master pgLog 0x050 value.toNat)) := by
  show Host.Outcome.next (writeTo master pgLog 0x050 value s) = _
  have hsel : selWrite master pgLog 0x050 value.toNat s
      = logSelect master (s.setSel master pgLog 0x050 (value.toNat &&& s.writable pgLog 0x050)) := rfl
  have hmask : value.toNat &&& 0xFFFFFFFF = value.toNat := by
    rw [show 0xFFFFFFFF = 2 ^ 32 - 1 from rfl, Nat.and_two_pow_sub_one_eq_mod, Nat.mod_eq_of_lt value.isLt]
  rw [writable_selLo, hmask] at hsel
  rw [writeTo_taken value h (by decide) (by decide) (by decide), ← hsel]
  rfl

/-- The latch holds the record of the SEQ that LOG_SEL_HI and the value written name, or that there is none. -/
theorem logSelect_marks (s : State) (master : Nat) (value : W32) :
    (logSelect master (s.setSel master pgLog 0x050 value.toNat)).log.marks
      = Map.insert s.log.marks master (s.log.recs.find? fun r => r.seq == value.toNat + s.sel master pgLog 0x054 * 2 ^ 32) := by
  unfold logSelect
  simp only
  rw [State.sel_setSel_same, State.sel_setSel_ne _ _ _ _ _ _ _ (by decide), Nat.mod_eq_of_lt value.isLt]
  rfl

/-- Settles O12: the MARK record goes on top of whatever the write of the register has logged, and the latch is one entry of `marks`. -/
theorem changeLogWorks : Obligations.ChangeLogWorks := by
  refine ⟨fun s master value h => ?_, fun s master value h => ⟨_, exec_logSel value h, ?_, fun m hm => ?_, rfl⟩⟩
  · have hexec := exec_logMark value h
    by_cases hsame : s.reg pgLog 0x06C = value.toNat
    · rw [markWrite_same hsame] at hexec
      refine ⟨_, _, hexec, logMark_head master s, ?_, rfl, rfl, rfl, rfl, rfl, rfl, rfl, ?_, fun _ => rfl,
        fun hne => absurd hsame hne, logMark_marked master s, (reports_markHi_kept hsame).trans (reports_logMark master s)⟩
      · rw [if_pos hsame]; rfl
      · rw [← hsame]; rfl
    · rw [markWrite_changed hsame] at hexec
      have hhead := logMark_head master (s.markLogged master value.toNat)
      rw [markRec_markLogged] at hhead
      refine ⟨_, _, hexec, hhead, ?_, rfl, rfl, rfl, rfl, rfl, rfl, rfl, rfl, fun hs => absurd hs hsame, fun _ => ?_,
        logMark_marked master _, (reports_regRecord _ _ _ _ _ _ _).trans (reports_logMark master _)⟩
      · rw [if_neg hsame]
      · rw [logMark_second, markLogged_head]
  · rw [logSelect_marks, Map.find?_insert_same]
  · rw [logSelect_marks, Map.find?_insert_ne _ _ hm]

end Sys2Proof.Machine
